-- ==== Sys2Proof/Word.lean ====
section
/-! DEFINITION. The byte of the wire and of the segment buffer (R7: bits numbered from 0, bit 7 most significant). -/

namespace Sys2Proof

/-- Eight bits, bit 7 most significant (R7). -/
abbrev Byte := BitVec 8

/-- A sequence of bytes in index order (R56): byte 0 is the first one sent. -/
abbrev Bytes := List Byte

end Sys2Proof
end

