-- ==== Sys2Proof/Config.lean ====
section
/-! DEFINITION. The parameters of R6: the values the spec fixes, and the OPEN ones as constants without a body.

An OPEN parameter is an opaque constant, so every claim about the model holds for each value the spec allows
(`93_implementation_defined.md` U1 to U3, U16, U18; `notes/assumptions/7.md`). Where the spec constrains an open
parameter, the opaque constant selects one of the allowed values, so the constraint holds by construction. -/

namespace Sys2Proof.Config

/-! Numbers of rows, columns, segments and slots (R6). -/
@[simp] abbrev rowCount : Nat := 7
@[simp] abbrev colCount : Nat := 5
@[simp] abbrev nsegs : Nat := 35
@[simp] abbrev nslots : Nat := 16

/-! Slot codes of the controller's character RAM (R6, R52). -/
@[simp] abbrev ramBase : Nat := 144
@[simp] abbrev ramLast : Nat := 159

/-! Operand ranges (R6). -/
@[simp] abbrev dlenMin : Nat := 9
@[simp] abbrev dlenMax : Nat := 16
@[simp] abbrev dimMax : Nat := 7
@[simp] abbrev posMin : Nat := 1
@[simp] abbrev posMax : Nat := 16
@[simp] abbrev digitAttachMax : Nat := 16
@[simp] abbrev rowMax : Nat := 31

/-- Segment contexts the block holds (R6, R30, D20). -/
abbrev nseg : Nat := 16

/-- Bytes of one segment buffer (R32). -/
abbrev bufLen : Nat := 7

/-! Base opcodes (R6, R154; D1 to D4). -/
abbrev opDlen : Byte := 0x00#8
abbrev opDim : Byte := 0x08#8
abbrev opCurs : Byte := 0xE0#8
abbrev opAinc : Byte := 0xF4#8
abbrev opRamwr : Byte := 0xFC#8

/-- Which of the allowed values `OP_FREQ` has: an even byte, it and its successor outside `0x00..0x0F`, `0xE0..0xF5`
and `0xFC` (R6, R153, D5). There are 108 of them. OPEN, no value assumed. -/
opaque opFreqChoice : Fin 108

/-- The `k`-th value that D5 allows for `OP_FREQ`: `0x10..0xDE` even, then `0xF6, 0xF8, 0xFA`, then `0xFE`. -/
def opFreqOf (k : Fin 108) : Byte :=
  if k.val < 104 then BitVec.ofNat 8 (0x10 + 2 * k.val)
  else if k.val < 107 then BitVec.ofNat 8 (0xF6 + 2 * (k.val - 104))
  else 0xFE#8

/-- `OP_FREQ`, the base opcode of display frequency (R6, R145, R89). OPEN. -/
def opFreq : Byte := opFreqOf opFreqChoice

/-- Which assignment of three distinct values of `0xF0..0xF3` to the three blanking modes holds (R6, R130, D6): one of
the 24. OPEN, no value assumed. -/
opaque blankChoice : Fin 24

/-- The `k`-th assignment of distinct values of `0xF0..0xF3` to (normal, all-on, all-off). -/
def blankOf (k : Fin 24) : Byte × Byte × Byte :=
  let n := k.val / 6
  let p := (k.val % 6) / 2
  let q := (p + 1 + k.val % 2) % 3
  (BitVec.ofNat 8 (0xF0 + n), BitVec.ofNat 8 (0xF0 + (n + 1 + p) % 4), BitVec.ofNat 8 (0xF0 + (n + 1 + q) % 4))

/-- `K_BLANK_NORMAL` (R6, R131). OPEN. -/
def blankNormal : Byte := (blankOf blankChoice).1

/-- `K_BLANK_ALLON` (R6, R132). OPEN. -/
def blankAllOn : Byte := (blankOf blankChoice).2.1

/-- `K_BLANK_ALLOFF` (R6, R133). OPEN. -/
def blankAllOff : Byte := (blankOf blankChoice).2.2

/-- `HAS_RST`: whether the optional reset line exists (R6, R23, D12). OPEN. -/
opaque hasRst : Bool

/-- `RST_ACTIVE`: the active level of the reset line (R6, R21, D11). OPEN. -/
opaque rstActive : Bool

/-- `SEND_MAX`: the largest byte count of one `SEND`, `none` where it is unbounded (R6, D21). OPEN. -/
opaque sendMax : Option Nat

/-- Whether `len` is more than the bound `m` on a `SEND` (no bound: never). -/
def overLimit (m : Option Nat) (len : Nat) : Bool :=
  match m with
  | none => false
  | some b => decide (b < len)

/-- `T_BIT`: the least length of a bit hold, in time units (R6, R250). -/
@[simp] abbrev tBit : Nat := 1

/-- `T_RST`: the length of a reset hold, in time units of its own (R6, R250). -/
@[simp] abbrev tRst : Nat := 10

end Sys2Proof.Config
end

