-- ==== Sys2Proof/Syntax.lean ====
section
/-! DEFINITION. The requests of the block, whole: one constructor of `Instr` per row of `opcode_table.json`, the request
port's record (R85), the cause codes (R201), the classes of wire bytes (R92) and the pseudo-instructions (R97). -/

namespace Sys2Proof

/-- The seven rows of a bitmap, row 0 on top (R57, R164); also the seven row ports `rows[0..6]` (R85). -/
structure Rows (α : Type) where
  r0 : α
  r1 : α
  r2 : α
  r3 : α
  r4 : α
  r5 : α
  r6 : α
deriving DecidableEq, Repr

/-- The rows in index order. -/
def Rows.toList {α : Type} (r : Rows α) : List α := [r.r0, r.r1, r.r2, r.r3, r.r4, r.r5, r.r6]

/-- The same function of every row. -/
def Rows.map {α β : Type} (f : α → β) (r : Rows α) : Rows β :=
  ⟨f r.r0, f r.r1, f r.r2, f r.r3, f r.r4, f r.r5, f r.r6⟩

/-- Seven equal rows. -/
def Rows.all {α : Type} (x : α) : Rows α := ⟨x, x, x, x, x, x, x⟩

/-- One request of the host (R12, R86, R96). Operands are natural numbers, so that every range check can be stated over
integers as R8 says; `Instr.wellFormed` says which fit the ports. -/
inductive Instr where
  /-- `SEND [b0, ...]` (R110). -/
  | send (bytes : List Nat)
  /-- `CRESET` (R115). -/
  | creset
  /-- `BLANK NORMAL` (R131). -/
  | blankNormal
  /-- `BLANK ALLON` (R132). -/
  | blankAllOn
  /-- `BLANK ALLOFF` (R133). -/
  | blankAllOff
  /-- `DLEN n` (R135). -/
  | dlen (n : Nat)
  /-- `DIM v` (R140). -/
  | dim (v : Nat)
  /-- `FREQ f` (R145). -/
  | freq (f : Nat)
  /-- `CURS p, f` (R150). -/
  | curs (p f : Nat)
  /-- `DEFCH slot, rows`, with the row count `nrows` presented beside the seven row ports (R160, R164). -/
  | defch (slot nrows : Nat) (rows : Rows Nat)
  /-- `SEG.ATTACH h, d, slot` (R175). -/
  | segAttach (h d slot : Nat)
  /-- `SEG.SET h, i, v` (R180). -/
  | segSet (h i v : Nat)
  /-- `SEG.UPDATE h` (R185). -/
  | segUpdate (h : Nat)
deriving DecidableEq, Repr

/-- The request port (R85), and what the operand latch captures from it (R28). `len` is the length of `bytes`. -/
structure Request where
  op    : BitVec 4
  a     : Byte
  b     : Byte
  h     : BitVec 4
  rows  : Rows Byte
  nrows : BitVec 4
  bytes : Bytes
deriving DecidableEq, Repr

/-- A request port with every signal 0. -/
def Request.zero : Request := ⟨0#4, 0#8, 0#8, 0#4, Rows.all 0#8, 0#4, []⟩

/-- The cause codes of `InvalidArgument` (R201), code 0 ("none") left out: it is the absence of an exception. -/
inductive ErrCode where
  | op | byte | mode | dlen | dim | freq | pos | ainc | slot | rows | rowval | digit | segidx | segval | ctx | unattached
deriving DecidableEq, Repr

/-- The classes of the 256 wire byte values (R92). -/
inductive ByteClass where
  /-- Digit length command with its digit count. -/
  | digitLength (n : Nat)
  /-- Dimmer command with its level. -/
  | dimmer (v : Nat)
  /-- Unassigned by the source document. -/
  | unassigned
  /-- Pass-through display code. -/
  | display
  /-- RAM slot code with its slot offset. -/
  | slotCode (offset : Nat)
  /-- Cursor position command with its position. -/
  | cursor (p : Nat)
  /-- A blanking command: one of the three constants in `0xF0..0xF3`. -/
  | blanking
  /-- Display frequency command with its operand: the pair `OP_FREQ`, `OP_FREQ | 1`, outside the display and slot codes. -/
  | frequency (f : Nat)
  /-- The auto-increment flag byte. -/
  | autoInc (on : Bool)
  /-- RAM character write. -/
  | ramWrite
deriving DecidableEq, Repr

/-! Pseudo-instructions (R97). -/

/-- `RAMk`, the slot code `143 + k` (R97). -/
abbrev ramSlot (k : Nat) : Nat := 143 + k

/-- `MODE.NORMAL`. -/
abbrev Instr.modeNormal : Instr := .blankNormal
/-- `MODE.ALLON`. -/
abbrev Instr.modeAllOn : Instr := .blankAllOn
/-- `MODE.ALLOFF`. -/
abbrev Instr.modeAllOff : Instr := .blankAllOff
/-- `CURS.INC p`. -/
abbrev Instr.cursInc (p : Nat) : Instr := .curs p 1
/-- `CURS.FIX p`. -/
abbrev Instr.cursFix (p : Nat) : Instr := .curs p 0
/-- `PUTC c`. -/
abbrev Instr.putc (c : Nat) : Instr := .send [c]
/-- `PUTS [c0, ...]`. -/
abbrev Instr.puts (cs : List Nat) : Instr := .send cs

end Sys2Proof
end

