-- ==== Sys2Proof/WellFormed.lean ====
section
/-! DEFINITION. Which requests the ports can carry (R8, R28, R85): each operand fits its port's width. An operand that
fits but is out of its range is well formed; the request's meaning rejects it with a cause code. -/

namespace Sys2Proof

/-- A value fits an `OPW` = 8-bit scalar port or one byte of the stream (R28). -/
def fitsByte (v : Nat) : Bool := decide (v < 256)

/-- A value fits the 4-bit context index or row count port (R28, R85). -/
def fitsNibble (v : Nat) : Bool := decide (v < 16)

/-- The request can be presented on the ports of R85. -/
def Instr.wellFormed : Instr → Bool
  | .send bytes => bytes.all fitsByte
  | .creset => true
  | .blankNormal => true
  | .blankAllOn => true
  | .blankAllOff => true
  | .dlen n => fitsByte n
  | .dim v => fitsByte v
  | .freq f => fitsByte f
  | .curs p f => fitsByte p && fitsByte f
  | .defch slot nrows rows => fitsByte slot && fitsNibble nrows && rows.toList.all fitsByte
  | .segAttach h d slot => fitsNibble h && fitsByte d && fitsByte slot
  | .segSet h i v => fitsNibble h && fitsByte i && fitsByte v
  | .segUpdate h => fitsNibble h

end Sys2Proof
end

