-- ==== Sys2Proof/Decode.lean ====
section
/-! DEFINITION. The two encodings of R80 and their decoders.

The REQUEST encoding (R85, R86): `decode` reads the request port, `encode` writes it. The WIRE encoding (R81 to R84,
R87 to R91): the bytes of a frame, with `decodeFrame` (R153, R162) reading a frame back into the request that emits it and
`encodeFrame` writing it. `opcode_table.json` numbers the bits of the wire encoding: `decodeTableWord` reads those. -/

namespace Sys2Proof

/-! ## Field assembly (R87 to R91, R98) -/

/-- A byte from its eight bits, bit 7 first. -/
def packByte (b7 b6 b5 b4 b3 b2 b1 b0 : Bool) : Byte :=
  (if b7 then 0x80#8 else 0#8) ||| (if b6 then 0x40#8 else 0#8) ||| (if b5 then 0x20#8 else 0#8)
    ||| (if b4 then 0x10#8 else 0#8) ||| (if b3 then 0x08#8 else 0#8) ||| (if b2 then 0x04#8 else 0#8)
    ||| (if b1 then 0x02#8 else 0#8) ||| (if b0 then 0x01#8 else 0#8)

/-- The byte of `DLEN n`: `OP_DLEN | (n - 9)` (R87). -/
def dlenByte (n : Nat) : Byte := Config.opDlen ||| BitVec.ofNat 8 (n - Config.dlenMin)

/-- The byte of `DIM v`: `OP_DIM | v` (R88). -/
def dimByte (v : Nat) : Byte := Config.opDim ||| BitVec.ofNat 8 v

/-- The byte of `FREQ f`: `OP_FREQ | f` (R89). -/
def freqByte (f : Nat) : Byte := Config.opFreq ||| BitVec.ofNat 8 f

/-- The two bytes of `CURS p, f`: `OP_CURS | (p - 1)`, then `OP_AINC | f` (R90). -/
def cursBytes (p f : Nat) : Bytes :=
  [Config.opCurs ||| BitVec.ofNat 8 (p - 1), Config.opAinc ||| BitVec.ofNat 8 f]

/-- The slot offset byte `slot - RAM_BASE` (R91). -/
def slotOffset (slot : Nat) : Byte := BitVec.ofNat 8 (slot - Config.ramBase)

/-- Column byte `c` of a bitmap: bit `7 - r` is bit `4 - c` of row `r`, bit 0 is 0 (R57, R91, R161). -/
def columnByte (rows : Rows Nat) (c : Nat) : Byte :=
  packByte (rows.r0.testBit (4 - c)) (rows.r1.testBit (4 - c)) (rows.r2.testBit (4 - c)) (rows.r3.testBit (4 - c))
    (rows.r4.testBit (4 - c)) (rows.r5.testBit (4 - c)) (rows.r6.testBit (4 - c)) false

/-- `Transcode(slot, rows)`: opcode, slot offset, five column bytes, leftmost column first (R161). -/
def transcode (slot : Nat) (rows : Rows Nat) : Bytes :=
  [Config.opRamwr, slotOffset slot, columnByte rows 0, columnByte rows 1, columnByte rows 2, columnByte rows 3,
    columnByte rows 4]

/-- Row `r` of the bitmap with the five given column bytes (R162). -/
def rowOfColumns (c0 c1 c2 c3 c4 : Byte) (r : Nat) : Nat :=
  (if c0.getLsbD (7 - r) then 16 else 0) + (if c1.getLsbD (7 - r) then 8 else 0)
    + (if c2.getLsbD (7 - r) then 4 else 0) + (if c3.getLsbD (7 - r) then 2 else 0)
    + (if c4.getLsbD (7 - r) then 1 else 0)

/-- `Decode(cols)`, the inverse transpose (R162). Bit 0 of a column byte is ignored. -/
def rowsOfColumns (c0 c1 c2 c3 c4 : Byte) : Rows Nat :=
  ⟨rowOfColumns c0 c1 c2 c3 c4 0, rowOfColumns c0 c1 c2 c3 c4 1, rowOfColumns c0 c1 c2 c3 c4 2,
    rowOfColumns c0 c1 c2 c3 c4 3, rowOfColumns c0 c1 c2 c3 c4 4, rowOfColumns c0 c1 c2 c3 c4 5,
    rowOfColumns c0 c1 c2 c3 c4 6⟩

/-! ## The request encoding -/

/-- The request that stands on the port (R86). A reserved selector is rejected with `E_OP` (R93) and a `BLANK` whose mode
is not one of the three with `E_MODE` (R130); every other check belongs to the request's meaning. -/
def decode (r : Request) : Except ErrCode Instr :=
  match r.op.toNat with
  | 0 => .ok (.send (r.bytes.map BitVec.toNat))
  | 1 => .ok .creset
  | 2 =>
    match r.a.toNat with
    | 0 => .ok .blankNormal
    | 1 => .ok .blankAllOn
    | 2 => .ok .blankAllOff
    | _ => .error .mode
  | 3 => .ok (.dlen r.a.toNat)
  | 4 => .ok (.dim r.a.toNat)
  | 5 => .ok (.freq r.a.toNat)
  | 6 => .ok (.curs r.a.toNat r.b.toNat)
  | 7 => .ok (.defch r.a.toNat r.nrows.toNat (r.rows.map BitVec.toNat))
  | 8 => .ok (.segAttach r.h.toNat r.a.toNat r.b.toNat)
  | 9 => .ok (.segSet r.h.toNat r.a.toNat r.b.toNat)
  | 10 => .ok (.segUpdate r.h.toNat)
  | _ => .error .op

/-- The port with this request's selector and the operands R86 gives it driven, its other signals as they were. -/
def Instr.onto (i : Instr) (r : Request) : Request :=
  match i with
  | .send bytes => { r with op := 0#4, bytes := bytes.map (BitVec.ofNat 8) }
  | .creset => { r with op := 1#4 }
  | .blankNormal => { r with op := 2#4, a := 0#8 }
  | .blankAllOn => { r with op := 2#4, a := 1#8 }
  | .blankAllOff => { r with op := 2#4, a := 2#8 }
  | .dlen n => { r with op := 3#4, a := BitVec.ofNat 8 n }
  | .dim v => { r with op := 4#4, a := BitVec.ofNat 8 v }
  | .freq f => { r with op := 5#4, a := BitVec.ofNat 8 f }
  | .curs p f => { r with op := 6#4, a := BitVec.ofNat 8 p, b := BitVec.ofNat 8 f }
  | .defch slot nrows rows =>
    { r with op := 7#4, a := BitVec.ofNat 8 slot, nrows := BitVec.ofNat 4 nrows, rows := rows.map (BitVec.ofNat 8) }
  | .segAttach h d slot =>
    { r with op := 8#4, h := BitVec.ofNat 4 h, a := BitVec.ofNat 8 d, b := BitVec.ofNat 8 slot }
  | .segSet h i v => { r with op := 9#4, h := BitVec.ofNat 4 h, a := BitVec.ofNat 8 i, b := BitVec.ofNat 8 v }
  | .segUpdate h => { r with op := 10#4, h := BitVec.ofNat 4 h }

/-- The request port that presents this request, its unused signals 0 (R85, R86). -/
def encode (i : Instr) : Request := i.onto Request.zero

/-! ## The wire encoding -/

/-- The one-byte frame of format W1 read back (R81, R153), any other byte as the `SEND` that puts it on the wire (R84). -/
def decodeW1 (b : Byte) : Instr :=
  if b &&& 0xF8#8 = Config.opDlen then .dlen ((b &&& 7#8).toNat + Config.dlenMin)
  else if b &&& 0xF8#8 = Config.opDim then .dim (b &&& 7#8).toNat
  else if b &&& 0xFE#8 = Config.opFreq then .freq (b &&& 1#8).toNat
  else if b = Config.blankNormal then .blankNormal
  else if b = Config.blankAllOn then .blankAllOn
  else if b = Config.blankAllOff then .blankAllOff
  else .send [b.toNat]

/-- The two-byte frame of format W2 read back (R82, R153), any other as a `SEND`. -/
def decodeW2 (b0 b1 : Byte) : Instr :=
  if b0 &&& 0xF0#8 = Config.opCurs ∧ b1 &&& 0xFE#8 = Config.opAinc
  then .curs ((b0 &&& 15#8).toNat + 1) (b1 &&& 1#8).toNat
  else .send [b0.toNat, b1.toNat]

/-- The seven-byte frame of format W7 read back (R83, R162), any other as a `SEND`. -/
def decodeW7 (o s c0 c1 c2 c3 c4 : Byte) : Instr :=
  if o = Config.opRamwr ∧ s &&& 0xF0#8 = 0#8 ∧ (c0 ||| c1 ||| c2 ||| c3 ||| c4) &&& 1#8 = 0#8
  then .defch (Config.ramBase + s.toNat) 7 (rowsOfColumns c0 c1 c2 c3 c4)
  else .send [o.toNat, s.toNat, c0.toNat, c1.toNat, c2.toNat, c3.toNat, c4.toNat]

/-- The request that puts exactly this frame on the wire: the command where the bytes are a command's, else the `SEND` of
the bytes (R153; `SEND` takes any bytes, R84, R249). Total on any frame. -/
def decodeFrame : Bytes → Instr
  | [b] => decodeW1 b
  | [b0, b1] => decodeW2 b0 b1
  | [o, s, c0, c1, c2, c3, c4] => decodeW7 o s c0 c1 c2 c3 c4
  | bs => .send (bs.map BitVec.toNat)

/-- The frame of a request that sends one frame whose bytes its operands alone determine (R81 to R84, R152); `none` for the
requests that send no byte and for `SEG.UPDATE`, whose frames come from a segment context. -/
def encodeFrame : Instr → Option Bytes
  | .send bytes => some (bytes.map (BitVec.ofNat 8))
  | .creset => none
  | .blankNormal => some [Config.blankNormal]
  | .blankAllOn => some [Config.blankAllOn]
  | .blankAllOff => some [Config.blankAllOff]
  | .dlen n => some [dlenByte n]
  | .dim v => some [dimByte v]
  | .freq f => some [freqByte f]
  | .curs p f => some (cursBytes p f)
  | .defch slot _ rows => some (transcode slot rows)
  | .segAttach _ _ _ => none
  | .segSet _ _ _ => none
  | .segUpdate _ => none

/-- The row of R92 that a wire byte value stands in, the open opcodes left unplaced: `.blanking` is the whole region
`0xF0..0xF3`. -/
def regionOf (b : Byte) : ByteClass :=
  let v := b.toNat
  if v ≤ 0x07 then .digitLength (v + 9)
  else if v ≤ 0x0F then .dimmer (v - 8)
  else if v ≤ 0x1F then .unassigned
  else if v ≤ 0x7F then .display
  else if v ≤ 0x8F then .unassigned
  else if v ≤ 0x9F then .slotCode (v - 144)
  else if v ≤ 0xDF then .display
  else if v ≤ 0xEF then .cursor ((b &&& 0x0F#8).toNat + 1)
  else if v ≤ 0xF3 then .blanking
  else if v = 0xF4 then .autoInc false
  else if v = 0xF5 then .autoInc true
  else if v = 0xFC then .ramWrite
  else .unassigned

/-- The class of a byte in a row of unassigned values: the frequency command where it is one of that command's two bytes, which
R92 and U6 keep out of the unassigned. In a row other than `0xF6..0xFB` this is the model's choice (`notes/assumptions/28.md`). -/
def frequencyOrUnassigned (b : Byte) : ByteClass :=
  if b = freqByte 0 then .frequency 0 else if b = freqByte 1 then .frequency 1 else .unassigned

/-- The class of a wire byte value (R92): its row, but that the value of `0xF0..0xF3` which is none of the three constants is
unassigned and the frequency pair is not (U6). The rows of display codes and of slot codes are fixed (R53, R63): they hold
whatever `OP_FREQ` is. -/
def classify (b : Byte) : ByteClass :=
  match regionOf b with
  | .unassigned => frequencyOrUnassigned b
  | .blanking =>
    if b = Config.blankNormal ∨ b = Config.blankAllOn ∨ b = Config.blankAllOff then .blanking else .unassigned
  | c => c

/-! ## The table's words

`opcode_table.json` gives each row its WIRE pattern (R99): bit 0 of a table word is bit 0 of the frame's byte 0, byte `k` is
bits `8 k + 7 .. 8 k`. -/

/-- The bytes of a table word, byte 0 first. -/
def tableBytes (nbits w : Nat) : Bytes :=
  (List.range ((nbits + 7) / 8)).map fun k => BitVec.ofNat 8 (w >>> (8 * k))

/-- The row's bytes that the table word leaves out, every field bit of them 0 (`notes/assumptions/3.md`): a RAM write is
seven bytes, a cursor command's second byte is `OP_AINC`. -/
def completeRow : Bytes → Bytes
  | [] => []
  | b :: rest =>
    if b = Config.opRamwr then b :: rest ++ List.replicate (6 - rest.length) 0#8
    else if b &&& 0xF0#8 = Config.opCurs ∧ rest = [] then [b, Config.opAinc]
    else b :: rest

/-- The ten bytes of the `SEG.UPDATE` row (RAM write, cursor, slot code), which name no context: context 0. -/
def decodeUpdateRow : Bytes → Option Instr
  | [o, s, _, _, _, _, _, q, f, g] =>
    if o = Config.opRamwr ∧ s &&& 0xF0#8 = 0#8 ∧ q &&& 0xF0#8 = Config.opCurs ∧ f = Config.opAinc ∧ g = 0x90#8 ||| s
    then some (.segUpdate 0) else none
  | _ => none

/-- The request the wire decoder reads from a table word; `none` for a word of no bits, which names no row. -/
def decodeTableWord (nbits w : Nat) : Option Instr :=
  match completeRow (tableBytes nbits w) with
  | [] => none
  | bs =>
    match decodeUpdateRow bs with
    | some i => some i
    | none => some (decodeFrame bs)

end Sys2Proof
end

