-- ==== Sys2Proof/Machine/State.lean ====
section
/-! DEFINITION. The state of the block (10_state.md), its two ways to stop, and its reset (70_reset_and_hazards.md). -/

namespace Sys2Proof.Machine

/-- The four output lines (R20). -/
inductive Line where
  | cs | clk | data | rst
deriving DecidableEq, Repr

/-- The two classes of hold (R9, R211). -/
inductive Hold where
  | bit | rst
deriving DecidableEq, Repr

/-- An event of the wire trace (R10): `Set(L, v)` or `Wait(T)`. -/
inductive Event where
  | set (l : Line) (v : Bool)
  | wait (t : Hold)
deriving DecidableEq, Repr

/-- The phases of the sequencer: frame and bit phases of R112, reset pulse phases of R116. -/
inductive Phase where
  | csAssert | setup | holdLow | rise | holdHigh | csRelease | rCs | rPre | rPulse | rRecover
deriving DecidableEq, Repr

/-- The tuple `(f, k, i, ph)` of R24: frame index, byte index, bit index (3 bits, 7 down to 0), phase. What `k` and `i` are in
the phases that stand in no bit is the model's choice (`notes/assumptions/27.md`). -/
structure SeqPos where
  f  : Nat
  k  : Nat
  i  : BitVec 3
  ph : Phase
deriving DecidableEq, Repr

/-- The sequencer position (R24). -/
inductive Seq where
  | idle
  | run (p : SeqPos)
deriving DecidableEq, Repr

/-- The response of a request (R27). -/
inductive Response where
  | ok
  | invalid (code : ErrCode)
deriving DecidableEq, Repr

/-- The binding of one segment context (R31, R33). -/
structure Context where
  valid : Bool
  digit : BitVec 5
  slot  : BitVec 8
deriving DecidableEq, Repr

/-- An address of the space SEGBUF (R50, R51): context index and byte index. No other address can be expressed (R59). -/
structure BufAddr where
  h : Fin Config.nseg
  k : Fin Config.bufLen
deriving DecidableEq, Repr

/-- The key of an address in the list that holds SEGBUF (`notes/assumptions/20.md`). -/
def BufAddr.key (a : BufAddr) : Nat := Config.bufLen * a.h.val + a.k.val

/-- The bytes of SEGBUF: (key, byte) pairs in canonical form, keys strictly rising, no byte equal to `Memory.unlisted`. -/
abbrev Memory := List Host.Cell

/-- What an unlisted byte reads as. The spec gives none a value (R234); DESIGN CHOICE, `notes/assumptions/6.md`. -/
def Memory.unlisted : Byte := 0x00#8

/-- The canonical form above a lower bound of the keys. -/
def Memory.wfFrom (lo : Nat) : Memory → Bool
  | [] => true
  | c :: rest => decide (lo ≤ c.1) && decide (c.2 ≠ Memory.unlisted) && Memory.wfFrom (c.1 + 1) rest

/-- The canonical form: keys strictly rising and no entry that reads as an unlisted byte does. -/
def Memory.wf (m : Memory) : Bool := Memory.wfFrom 0 m

/-- The whole state of the block (10_state.md section 1), the ghost wire trace, and the host's requests. -/
structure State where
  /-- CS output latch, active 0 (R20, R21). -/
  cs      : Bool
  /-- CLK output latch (R20, R21). -/
  clk     : Bool
  /-- DATA output latch (R20, R21). -/
  data    : Bool
  /-- RST output latch, `none` where the line does not exist (R20, R23). -/
  rst     : Option Bool
  /-- Sequencer position (R24). -/
  seq     : Seq
  /-- Transmit queue: the bytes of the frame being sent (R25). -/
  txq     : Bytes
  /-- BUSY (R26). -/
  busy    : Bool
  /-- FAULT, sticky (R26). -/
  fault   : Bool
  /-- ERRCODE (R26, R201). -/
  errcode : BitVec 5
  /-- The response port (R27, R85); `none` while it holds no response. -/
  resp    : Option Response
  /-- Operand latch (R28). What the fields that a request does not use hold is the model's choice (`notes/assumptions/29.md`). -/
  latch   : Request
  /-- Segment contexts: valid, digit, slot (R30, R31, R33). -/
  ctxs    : Vector Context Config.nseg
  /-- The segment buffers, space SEGBUF (R32, R51). -/
  segbuf  : Memory
  /-- The wire trace since block reset, ghost (R10, R38). -/
  trace   : List Event
  /-- The requests the host presents, in order; the first stands on the request port (R85). The model's own field. -/
  host    : List Request
deriving DecidableEq, Repr

/-- Why the machine stops with a fault. -/
inductive Fault where
  /-- Raised by a small step of the sequencer from a state whose BUSY, seq and txq contradict each other (BUSY = 1 with
  seq = IDLE, or a byte index beyond txq). No run reaches such a state. Safe: the model stops, it claims nothing. -/
  | sequencerLost
deriving DecidableEq, Repr

/-- Why the machine refuses an instruction. -/
inductive Refusal where
  /-- Raised by an arm of `exec` for an instruction without a meaning. No arm raises it: every instruction has its meaning.
  Safe. -/
  | notModelled (mnemonic : String)
deriving DecidableEq, Repr

/-- What one instruction or one step answers. -/
abbrev Outcome := Host.Outcome State Fault Refusal

/-- A context after block reset: not valid (R234); digit and slot have no defined value, DESIGN CHOICE 0
(`notes/assumptions/5.md`). -/
def Context.reset : Context := ⟨false, 0#5, 0#8⟩

/-- The block right after reset (R231 to R235). The operand latch has no defined value (R233): DESIGN CHOICE 0
(`notes/assumptions/4.md`). The host presents nothing (`notes/assumptions/2.md`). -/
def State.reset : State where
  cs := true
  clk := false
  data := false
  rst := if Config.hasRst then some (!Config.rstActive) else none
  seq := .idle
  txq := []
  busy := false
  fault := false
  errcode := 0#5
  resp := none
  latch := Request.zero
  ctxs := Vector.replicate Config.nseg Context.reset
  segbuf := []
  trace := []
  host := []

end Sys2Proof.Machine
end

