-- ==== Sys2Proof/Machine/Flags.lean ====
section
/-! DEFINITION. The status flags BUSY, FAULT, ERRCODE and the response port (R26, R27, R201). No operation computes any
other flag. -/

namespace Sys2Proof.Machine

/-- The 5-bit cause code (R201). -/
def errBits : ErrCode → BitVec 5
  | .op => 1#5
  | .byte => 2#5
  | .mode => 3#5
  | .dlen => 4#5
  | .dim => 5#5
  | .freq => 6#5
  | .pos => 7#5
  | .ainc => 8#5
  | .slot => 9#5
  | .rows => 10#5
  | .rowval => 11#5
  | .digit => 12#5
  | .segidx => 13#5
  | .segval => 14#5
  | .ctx => 15#5
  | .unattached => 16#5

/-- FAULT is set, ERRCODE records the cause (R26, R205). -/
def State.flagError (code : ErrCode) (s : State) : State :=
  { s with fault := true, errcode := errBits code }

/-- The request ends: the response is given, BUSY returns to 0, the sequencer is IDLE (R26, R27, R85). -/
def State.respond (r : Response) (s : State) : State :=
  { s with resp := some r, busy := false, seq := .idle }

end Sys2Proof.Machine
end

