-- ==== Sys2Proof/Machine/Operands.lean ====
section
/-! DEFINITION. Operand forms: the range checks of R201 over natural numbers (R8), in the order of R207, and what a request
that passes them has to do. -/

namespace Sys2Proof.Machine

/-- What an accepted request turns out to be, once all its checks are made (R155, R206). -/
inductive Plan where
  /-- A check failed: raise `InvalidArgument(code)`. -/
  | reject (code : ErrCode)
  /-- Send these frames in order (R152, R160, R185). -/
  | frames (fs : List Bytes)
  /-- The controller reset pulse (R115). -/
  | pulse
  /-- No event and no local write (R117). -/
  | nothing
  /-- Write bytes of the buffer of context `h`, and its binding where one is given (R175, R180). -/
  | store (h : Fin Config.nseg) (writes : List (Fin Config.bufLen × Byte)) (binding : Option Context)
deriving DecidableEq, Repr

/-- One check: reject with `code` if it fails, else go on (R207: the first failing check is the one reported). -/
def rejectIf (bad : Bool) (code : ErrCode) (rest : Plan) : Plan :=
  if bad then .reject code else rest

/-- Some value of a `SEND` is no 8-bit value (R110). -/
def badBytes (bytes : List Nat) : Bool := bytes.any fun b => decide (255 < b)

/-- A digit count outside 9 to 16 (R135). -/
def badDlen (n : Nat) : Bool := decide (n < Config.dlenMin) || decide (Config.dlenMax < n)

/-- A dimmer level above 7 (R140). -/
def badDim (v : Nat) : Bool := decide (Config.dimMax < v)

/-- A cursor position outside 1 to 16 (R150). -/
def badPos (p : Nat) : Bool := decide (p < Config.posMin) || decide (Config.posMax < p)

/-- A flag operand that is not 0 or 1 (R145, R150, R180). -/
def badFlag (f : Nat) : Bool := decide (1 < f)

/-- A slot code outside 144 to 159 (R160, R175). -/
def badSlot (slot : Nat) : Bool := decide (slot < Config.ramBase) || decide (Config.ramLast < slot)

/-- A row count other than 7 (R160, R164). -/
def badRowCount (nrows : Nat) : Bool := decide (nrows ≠ Config.rowCount)

/-- Some row above 31 (R160, R164). -/
def badRows (rows : Rows Nat) : Bool := rows.toList.any fun r => decide (Config.rowMax < r)

/-- An attach digit above 16 (R175). -/
def badDigit (d : Nat) : Bool := decide (Config.digitAttachMax < d)

/-- A segment index above 34 (R180). -/
def badSegment (i : Nat) : Bool := decide (Config.nsegs ≤ i)

/-- The byte index `2 + (i mod 5)` of segment `i` (R58, R180). -/
def segByte (i : Nat) : Fin Config.bufLen := ⟨2 + i % 5, Nat.add_lt_add_left (Nat.mod_lt i (by decide)) 2⟩

/-- The bit position `7 - (i div 5)` of segment `i` (R58, R180). -/
def segBit (i : Nat) : Nat := 7 - i / 5

/-- The one-bit mask `1 << (7 - (i div 5))` (R98, R180). -/
def segMask (i : Nat) : Byte := 1#8 <<< segBit i

/-- The bit set or the bitwise clear of `SEG.SET` (R180, R183). -/
def segUpdateByte (old : Byte) (i v : Nat) : Byte :=
  if v = 1 then old ||| segMask i else old &&& (0xFF#8 ^^^ segMask i)

end Sys2Proof.Machine
end

