-- ==== Sys2Proof/Machine/Ops.lean ====
section
/-! DEFINITION. The named operations over the line latches and the wire trace (R9, R110, R111, R115), the segment buffers
(R51), the contexts (R30), taking the one exception (R205), and running a request whole (R27, R121). -/

namespace Sys2Proof.Machine

/-! ## Lines and the wire trace -/

/-- Append one event to the wire trace (R38). -/
def State.record (e : Event) (s : State) : State := { s with trace := s.trace ++ [e] }

/-- Set a line's latch (R20). A line that does not exist has no latch (R23). -/
def State.setLine (l : Line) (v : Bool) (s : State) : State :=
  match l with
  | .cs => { s with cs := v }
  | .clk => { s with clk := v }
  | .data => { s with data := v }
  | .rst => { s with rst := s.rst.map fun _ => v }

/-- `drive(L, v)`: set the latch and record the event (R9, R20). -/
def State.drive (l : Line) (v : Bool) (s : State) : State := (s.setLine l v).record (.set l v)

/-- `wait(T)`: record the hold, which has no other effect (R9, R250). -/
def State.hold (t : Hold) (s : State) : State := s.record (.wait t)

/-- Perform one event. -/
def State.perform (s : State) (e : Event) : State :=
  match e with
  | .set l v => s.drive l v
  | .wait t => s.hold t

/-- Perform a sequence of events in order. -/
def State.emit (evs : List Event) (s : State) : State := evs.foldl State.perform s

/-- The bit cell `Bit(b)`: five events (R111). -/
def bitCell (b : Bool) : List Event :=
  [.set .clk false, .set .data b, .wait .bit, .set .clk true, .wait .bit]

/-- The bits of a byte in the order sent, bit 7 first (R55). -/
def bitsOf (b : Byte) : List Bool :=
  [b.getLsbD 7, b.getLsbD 6, b.getLsbD 5, b.getLsbD 4, b.getLsbD 3, b.getLsbD 2, b.getLsbD 1, b.getLsbD 0]

/-- The eight bit cells of a byte. -/
def byteTrace (b : Byte) : List Event := (bitsOf b).flatMap bitCell

/-- `SendTrace(bs)`: the events of one frame (R110, R119). -/
def sendTrace (bs : Bytes) : List Event :=
  .set .cs false :: (bs.flatMap byteTrace ++ [.set .cs true])

/-- The events of the controller reset pulse for an active level `a` of the reset line (R115). -/
def pulseTrace (a : Bool) : List Event :=
  [.set .cs true, .set .rst !a, .set .rst a, .wait .rst, .set .rst !a, .wait .rst]

/-- `Send(bs)`: the frame is loaded into the transmit queue (R25) and transmitted (R110). -/
def State.sendFrame (s : State) (bs : Bytes) : State := State.emit (sendTrace bs) { s with txq := bs }

/-! ## Segment buffers and contexts -/

/-- The byte at a key, `Memory.unlisted` where none is listed. -/
def Memory.read : Memory → Nat → Byte
  | [], _ => Memory.unlisted
  | c :: rest, a => if c.1 = a then c.2 else Memory.read rest a

/-- List the byte `v` at key `a`, in place. -/
def Memory.insert : Memory → Nat → Byte → Memory
  | [], a, v => [(a, v)]
  | c :: rest, a, v =>
    if a < c.1 then (a, v) :: c :: rest
    else if a = c.1 then (a, v) :: rest
    else c :: Memory.insert rest a v

/-- Write a byte, keeping the canonical form: a byte that an unlisted key reads as is not listed. -/
def Memory.write (m : Memory) (a : Nat) (v : Byte) : Memory :=
  if v = Memory.unlisted then m.filter fun c => decide (c.1 ≠ a) else Memory.insert m a v

/-- `MemRead((h, k), 1)` (R9, R51). -/
def State.memRead (s : State) (a : BufAddr) : Byte := Memory.read s.segbuf a.key

/-- `MemWrite((h, k), 1, v)` (R9, R51). -/
def State.memWrite (s : State) (a : BufAddr) (v : Byte) : State :=
  { s with segbuf := Memory.write s.segbuf a.key v }

/-- Write bytes of one context's buffer, in order. -/
def State.writeBuf (h : Fin Config.nseg) (writes : List (Fin Config.bufLen × Byte)) (s : State) : State :=
  writes.foldl (fun s w => s.memWrite ⟨h, w.1⟩ w.2) s

/-- The buffer of a context in index order (R32, R51). -/
def State.bufBytes (s : State) (h : Fin Config.nseg) : Bytes :=
  [s.memRead ⟨h, 0⟩, s.memRead ⟨h, 1⟩, s.memRead ⟨h, 2⟩, s.memRead ⟨h, 3⟩, s.memRead ⟨h, 4⟩, s.memRead ⟨h, 5⟩,
    s.memRead ⟨h, 6⟩]

/-- The binding of a context (R30). -/
def State.context (s : State) (h : Fin Config.nseg) : Context := s.ctxs[h]

/-- Replace the binding of a context where one is given (R31). -/
def State.bind (h : Fin Config.nseg) (c : Option Context) (s : State) : State :=
  match c with
  | none => s
  | some c => { s with ctxs := s.ctxs.set h c }

/-- The three frames of `SEG.UPDATE` on a context: RAM write from the buffer, cursor to the bound digit with auto-increment
off, the slot code (R185). -/
def State.updateFrames (s : State) (h : Fin Config.nseg) : List Bytes :=
  [s.bufBytes h, cursBytes (s.context h).digit.toNat 0, [(s.context h).slot]]

/-! ## The exception, and the end of a request -/

/-- Taking the one exception, `raise InvalidArgument(code)`, in full (R205): FAULT and ERRCODE are written, the response is
`INVALID(code)`, BUSY returns to 0, the sequencer is IDLE; no event, no context, no buffer byte, no line. There is no
handler and no return (R208): the block is then as ready as after any response. -/
def State.raise (code : ErrCode) (s : State) : State := (s.flagError code).respond (.invalid code)

/-- A request is accepted: its operands are latched and BUSY is 1 (R28, R85); the response port holds nothing until the
request ends (R85, `notes/assumptions/12.md`). DESIGN CHOICE: the latch fields that the request does not use keep what they held
(U11 allows any value; `notes/assumptions/29.md`). -/
def State.accept (i : Instr) (s : State) : State :=
  { s with latch := i.onto s.latch, busy := true, resp := none }

/-- Carry out a plan whole, from the first event to the response (R27, R121). -/
def State.carryOut (p : Plan) (s : State) : State :=
  match p with
  | .reject code => s.raise code
  | .frames fs => (fs.foldl State.sendFrame s).respond .ok
  | .pulse => (State.emit (pulseTrace Config.rstActive) s).respond .ok
  | .nothing => s.respond .ok
  | .store h writes c => ((s.writeBuf h writes).bind h c).respond .ok

/-- Present a request to the block. While BUSY = 1 it is not accepted and has no effect (R85, R241); else it is accepted and
its plan is carried out. -/
def request (i : Instr) (p : Plan) (s : State) : Outcome :=
  if s.busy then .next s else .next ((s.accept i).carryOut p)

end Sys2Proof.Machine
end

