-- ==== Sys2Proof/Machine/CommandEncoder.lean ====
section
/-! DEFINITION. Command Encoder: `BLANK`, `DLEN`, `DIM`, `FREQ`, `CURS` (41_command_encoder.md). Each plan is
`Encode(op, a, b)` of R152: the range check, then one frame. -/

namespace Sys2Proof.Machine

/-- `DLEN n` (R135). -/
def planDlen (n : Nat) : Plan := rejectIf (badDlen n) .dlen <| .frames [[dlenByte n]]

/-- `DIM v` (R140). -/
def planDim (v : Nat) : Plan := rejectIf (badDim v) .dim <| .frames [[dimByte v]]

/-- `FREQ f` (R145). -/
def planFreq (f : Nat) : Plan := rejectIf (badFlag f) .freq <| .frames [[freqByte f]]

/-- `CURS p, f`, the position checked first (R150). -/
def planCurs (p f : Nat) : Plan :=
  rejectIf (badPos p) .pos <| rejectIf (badFlag f) .ainc <| .frames [cursBytes p f]

/-- `BLANK NORMAL` (R131). -/
def execBlankNormal (s : State) : Outcome := request .blankNormal (.frames [[Config.blankNormal]]) s

/-- `BLANK ALLON` (R132). -/
def execBlankAllOn (s : State) : Outcome := request .blankAllOn (.frames [[Config.blankAllOn]]) s

/-- `BLANK ALLOFF` (R133). -/
def execBlankAllOff (s : State) : Outcome := request .blankAllOff (.frames [[Config.blankAllOff]]) s

/-- `DLEN n` (R135). -/
def execDlen (n : Nat) (s : State) : Outcome := request (.dlen n) (planDlen n) s

/-- `DIM v` (R140). -/
def execDim (v : Nat) (s : State) : Outcome := request (.dim v) (planDim v) s

/-- `FREQ f` (R145). -/
def execFreq (f : Nat) (s : State) : Outcome := request (.freq f) (planFreq f) s

/-- `CURS p, f` (R150). -/
def execCurs (p f : Nat) (s : State) : Outcome := request (.curs p f) (planCurs p f) s

end Sys2Proof.Machine
end

