-- ==== Sys2Proof/Machine/SegmentMapper.lean ====
section
/-! DEFINITION. Segment Mapper: `SEG.ATTACH`, `SEG.SET`, `SEG.UPDATE` (43_segment_mapper.md). -/

namespace Sys2Proof.Machine

/-- The seven buffer writes of an attach: the header of R83, then five blank columns (R175). -/
def attachWrites (slot : Nat) : List (Fin Config.bufLen × Byte) :=
  [(0, Config.opRamwr), (1, slotOffset slot), (2, 0#8), (3, 0#8), (4, 0#8), (5, 0#8), (6, 0#8)]

/-- `SEG.ATTACH h, d, slot` (R175). -/
def planSegAttach (h d slot : Nat) : Plan :=
  if hc : h < Config.nseg then
    rejectIf (badDigit d) .digit <| rejectIf (badSlot slot) .slot <|
      .store ⟨h, hc⟩ (attachWrites slot) (some ⟨true, BitVec.ofNat 5 d, BitVec.ofNat 8 slot⟩)
  else .reject .ctx

/-- `SEG.SET h, i, v`: one byte read, one bit of it set or cleared, the byte written back (R180). -/
def planSegSet (h i v : Nat) (s : State) : Plan :=
  if hc : h < Config.nseg then
    rejectIf (!(s.context ⟨h, hc⟩).valid) .unattached <| rejectIf (badSegment i) .segidx <| rejectIf (badFlag v) .segval <|
      .store ⟨h, hc⟩ [(segByte i, segUpdateByte (s.memRead ⟨⟨h, hc⟩, segByte i⟩) i v)] none
  else .reject .ctx

/-- `SEG.UPDATE h`, the digit check before the first frame (R185, R186). -/
def planSegUpdate (h : Nat) (s : State) : Plan :=
  if hc : h < Config.nseg then
    rejectIf (!(s.context ⟨h, hc⟩).valid) .unattached <|
      rejectIf (decide ((s.context ⟨h, hc⟩).digit.toNat < Config.posMin)) .pos <|
        .frames (s.updateFrames ⟨h, hc⟩)
  else .reject .ctx

/-- `SEG.ATTACH h, d, slot` (R175). -/
def execSegAttach (h d slot : Nat) (s : State) : Outcome := request (.segAttach h d slot) (planSegAttach h d slot) s

/-- `SEG.SET h, i, v` (R180). -/
def execSegSet (h i v : Nat) (s : State) : Outcome := request (.segSet h i v) (planSegSet h i v s) s

/-- `SEG.UPDATE h` (R185). -/
def execSegUpdate (h : Nat) (s : State) : Outcome := request (.segUpdate h) (planSegUpdate h s) s

end Sys2Proof.Machine
end

