-- ==== Sys2Proof/Machine/Transcoder.lean ====
section
/-! DEFINITION. Character Transcoder: `DEFCH` (42_char_transcoder.md); the transpose itself is `transcode` (R161). -/

namespace Sys2Proof.Machine

/-- The checks of `DEFCH` in their order, then the RAM write (R160). -/
def planDefch (slot nrows : Nat) (rows : Rows Nat) : Plan :=
  rejectIf (badSlot slot) .slot <| rejectIf (badRowCount nrows) .rows <| rejectIf (badRows rows) .rowval <|
    .frames [transcode slot rows]

/-- `DEFCH slot, rows` (R160). -/
def execDefch (slot nrows : Nat) (rows : Rows Nat) (s : State) : Outcome :=
  request (.defch slot nrows rows) (planDefch slot nrows rows) s

end Sys2Proof.Machine
end

