-- ==== Sys2Proof/Machine/Transport.lean ====
section
/-! DEFINITION. Serial Transport: `SEND` and `CRESET` (40_transport.md). -/

namespace Sys2Proof.Machine

/-- The checks of `SEND` (R110): 8-bit values, at most `SEND_MAX` of them. -/
def planSend (bytes : List Nat) : Plan :=
  rejectIf (badBytes bytes || Config.overLimit Config.sendMax bytes.length) .byte <|
    .frames [bytes.map (BitVec.ofNat 8)]

/-- `CRESET`: the reset pulse where there is a reset line, nothing where there is none (R115, R117). -/
def planCreset : Plan := if Config.hasRst then .pulse else .nothing

/-- `SEND [b0, ...]` (R110). -/
def execSend (bytes : List Nat) (s : State) : Outcome := request (.send bytes) (planSend bytes) s

/-- `CRESET` (R115 to R117). -/
def execCreset (s : State) : Outcome := request .creset planCreset s

end Sys2Proof.Machine
end

