-- ==== Sys2Proof/Machine/Dispatch.lean ====
section
/-! DEFINITION. One arm per request (R86): what presenting it to the block does. -/

namespace Sys2Proof.Machine

def exec (i : Instr) (s : State) : Host.Outcome State Fault Refusal :=
  match i with
  | .send bytes => Sys2Proof.Machine.execSend bytes s
  | .creset => Sys2Proof.Machine.execCreset s
  | .blankNormal => Sys2Proof.Machine.execBlankNormal s
  | .blankAllOn => Sys2Proof.Machine.execBlankAllOn s
  | .blankAllOff => Sys2Proof.Machine.execBlankAllOff s
  | .dlen n => Sys2Proof.Machine.execDlen n s
  | .dim v => Sys2Proof.Machine.execDim v s
  | .freq f => Sys2Proof.Machine.execFreq f s
  | .curs p f => Sys2Proof.Machine.execCurs p f s
  | .defch slot nrows rows => Sys2Proof.Machine.execDefch slot nrows rows s
  | .segAttach h d slot => Sys2Proof.Machine.execSegAttach h d slot s
  | .segSet h x v => Sys2Proof.Machine.execSegSet h x v s
  | .segUpdate h => Sys2Proof.Machine.execSegUpdate h s

end Sys2Proof.Machine
end

