-- ==== Sys2Proof/Machine/Sequencer.lean ====
section
/-! DEFINITION. The small-step form of a request: the sequencer of R24, R112 and R116, one arrow at a time. `exec` is the
big-step form, which governs (R112, D29); a request that `startRequest` has begun is carried to its end by `microStep`. -/

namespace Sys2Proof.Machine

/-- What a request has to do in this state: the plan its meaning carries out. -/
def planOf (i : Instr) (s : State) : Plan :=
  match i with
  | .send bytes => planSend bytes
  | .creset => planCreset
  | .blankNormal => .frames [[Config.blankNormal]]
  | .blankAllOn => .frames [[Config.blankAllOn]]
  | .blankAllOff => .frames [[Config.blankAllOff]]
  | .dlen n => planDlen n
  | .dim v => planDim v
  | .freq f => planFreq f
  | .curs p f => planCurs p f
  | .defch slot nrows rows => planDefch slot nrows rows
  | .segAttach h d slot => planSegAttach h d slot
  | .segSet h i v => planSegSet h i v s
  | .segUpdate h => planSegUpdate h s

/-- Begin a plan: a rejection, a local write and a request without events end at once; a transmission loads its first frame
into the transmit queue and leaves `IDLE` for `CS_ASSERT` (R25, R112); the reset pulse leaves it for `R_CS` (R116). DESIGN
CHOICE: `k = 0` and `i = 7` there, where the rules give the phase alone (`notes/assumptions/27.md`). -/
def State.start (p : Plan) (s : State) : State :=
  match p with
  | .frames (bs :: _) => { s with txq := bs, seq := .run ⟨0, 0, 7#3, .csAssert⟩ }
  | .frames [] => s.carryOut (.frames [])
  | .pulse => { s with seq := .run ⟨0, 0, 7#3, .rCs⟩ }
  | .reject code => s.carryOut (.reject code)
  | .nothing => s.carryOut .nothing
  | .store h writes c => s.carryOut (.store h writes c)

/-- Present a request and make its first move only (R112); a busy block does not accept it (R85). -/
def startRequest (i : Instr) (s : State) : State :=
  if s.busy then s else (s.accept i).start (planOf i s)

/-- The context the latched request names (R28). -/
def Request.context (r : Request) : Fin Config.nseg := ⟨r.h.toNat, r.h.isLt⟩

/-- The frame that follows frame `f` of the request in progress: only `SEG.UPDATE` (selector 10) has more than one
(R24, R121). -/
def State.nextFrame (s : State) (f : Nat) : Option Bytes :=
  if s.latch.op = 10#4 then (s.updateFrames (Request.context s.latch))[f + 1]? else none

/-- The bit that follows bit `i` of byte `k` in a frame of `len` bytes, or the release of chip-select (R112). DESIGN CHOICE: the
release keeps the last `k` and `i`, where R112 gives the phase alone (`notes/assumptions/27.md`). -/
def SeqPos.advance (p : SeqPos) (len : Nat) : SeqPos :=
  if p.i ≠ 0#3 then { p with i := p.i - 1#3, ph := .setup }
  else if p.k + 1 < len then { p with k := p.k + 1, i := 7#3, ph := .setup }
  else { p with ph := .csRelease }

/-- One arrow of R112 or R116. DESIGN CHOICE: `k` and `i` are 0 and 7 in `CS_ASSERT`, kept in `CS_RELEASE` and through the reset
pulse, where R112 and R116 give the phase alone (`notes/assumptions/27.md`). -/
def microStep (s : State) : Outcome :=
  match s.seq with
  | .idle => .fault .sequencerLost
  | .run p =>
    match p.ph with
    | .csAssert =>
      .next { s.drive .cs false with
        seq := .run (if s.txq = [] then { p with ph := .csRelease } else { p with k := 0, i := 7#3, ph := .setup }) }
    | .setup =>
      match s.txq[p.k]? with
      | none => .fault .sequencerLost
      | some b =>
        .next { (s.drive .clk false).drive .data (b.getLsbD p.i.toNat) with seq := .run { p with ph := .holdLow } }
    | .holdLow => .next { s.hold .bit with seq := .run { p with ph := .rise } }
    | .rise => .next { s.drive .clk true with seq := .run { p with ph := .holdHigh } }
    | .holdHigh => .next { s.hold .bit with seq := .run (p.advance s.txq.length) }
    | .csRelease =>
      match s.nextFrame p.f with
      | some bs => .next { s.drive .cs true with txq := bs, seq := .run ⟨p.f + 1, 0, 7#3, .csAssert⟩ }
      | none => .next ((s.drive .cs true).respond .ok)
    | .rCs => .next { s.drive .cs true with seq := .run { p with ph := .rPre } }
    | .rPre => .next { s.drive .rst (!Config.rstActive) with seq := .run { p with ph := .rPulse } }
    | .rPulse => .next { (s.drive .rst Config.rstActive).hold .rst with seq := .run { p with ph := .rRecover } }
    | .rRecover => .next (((s.drive .rst (!Config.rstActive)).hold .rst).respond .ok)

/-- At most `n` small steps, ending as soon as the request has ended (BUSY = 0). -/
def runBusy : Nat → State → Outcome
  | 0, s => .next s
  | n + 1, s =>
    if s.busy then
      match microStep s with
      | .next t => runBusy n t
      | .fault r => .fault r
      | .refused r => .refused r
    else .next s

end Sys2Proof.Machine
end

