-- ==== Sys2Proof/Machine/Step.lean ====
section
/-! DEFINITION. One step of the machine: accept the request on the port and run it whole, or advance a request in progress
by one small step (R85, R112, D29). -/

namespace Sys2Proof.Machine

/-- The request on the port is taken: the operand latch captures the port's signals, the host goes on to its next request
(R28, R85). DESIGN CHOICE: the latch captures every signal, also those that the request does not use (U11 allows any value;
`notes/assumptions/29.md`). -/
def State.take (r : Request) (rest : List Request) (s : State) : State := { s with latch := r, host := rest }

/-- One step. A busy block advances its sequencer and accepts nothing (R241). An idle block with no request stays as it is
(R215). Else the request is decoded and run to completion; a port that holds no request of R86 raises the cause code its
decoding gives (R93, R130). -/
def step (s : State) : Host.Outcome State Fault Refusal :=
  if s.busy then microStep s
  else
    match s.host with
    | [] => .next s
    | r :: rest =>
      match decode r with
      | .ok i => exec i (s.take r rest)
      | .error code => .next ((s.take r rest).raise code)

/-- The state in which the host presents next the request that a table word stands for (`notes/assumptions/3.md`); a word
that names no row changes nothing. -/
def State.withFetchWord (s : State) (nbits w : Nat) : State :=
  match decodeTableWord nbits w with
  | some i => { s with host := encode i :: s.host }
  | none => s

end Sys2Proof.Machine
end

