-- ==== Sys2Proof/Machine/Observe.lean ====
section
/-! DEFINITION. What an observer of the block states claims with, no part of the block itself: the controller's view of the
wire (`Frames`, R118), wire equivalence (R10), counts and least times (R120, R250), the segment view (R33). -/

namespace Sys2Proof.Machine

/-- Group bits into bytes in arrival order, the first bit of eight is bit 7; `none` where they are no whole number of bytes:
a malformed frame (R118). -/
def groupBits : List Bool → Option Bytes
  | [] => some []
  | b7 :: b6 :: b5 :: b4 :: b3 :: b2 :: b1 :: b0 :: rest =>
    (groupBits rest).map fun bs => packByte b7 b6 b5 b4 b3 b2 b1 b0 :: bs
  | _ => none

/-- The observer of R118: the levels it tracks, the bits of the open frame, the frames received (`none`: malformed). -/
structure Receiver where
  cs   : Bool
  clk  : Bool
  data : Bool
  bits : List Bool
  got  : List (Option Bytes)
deriving DecidableEq, Repr

/-- The observer starts from the block-reset levels (R118, R231). -/
def Receiver.init : Receiver := ⟨true, false, false, [], []⟩

/-- What the observer does with one event (R118). -/
def Receiver.see (r : Receiver) (e : Event) : Receiver :=
  match e with
  | .set .cs false => if r.cs then { r with cs := false, bits := [] } else r
  | .set .cs true => if r.cs then r else { r with cs := true, bits := [], got := r.got ++ [groupBits r.bits] }
  | .set .clk true => if !r.clk && !r.cs then { r with clk := true, bits := r.bits ++ [r.data] } else { r with clk := true }
  | .set .clk false => { r with clk := false }
  | .set .data v => { r with data := v }
  | .set .rst _ => r
  | .wait _ => r

/-- The observer after a trace. -/
def receive (tr : List Event) : Receiver := tr.foldl Receiver.see Receiver.init

/-- `Frames(trace)`: the frames the controller receives (R118). -/
def framesOf (tr : List Event) : List (Option Bytes) := (receive tr).got

/-- The level of a line after a sequence of events, from level `v`. -/
def levelAfter (l : Line) (v : Bool) : List Event → Bool
  | [] => v
  | .set l' v' :: rest => levelAfter l (if l' = l then v' else v) rest
  | .wait _ :: rest => levelAfter l v rest

/-- The level that a frame leaves on DATA: bit 0 of the last byte (R113). -/
def lastBit (v : Bool) (bs : Bytes) : Bool :=
  match bs.getLast? with
  | none => v
  | some b => b.getLsbD 0

/-- The changes of level a trace makes, from given levels, in order; a set to the level a line has changes nothing (R10). -/
def levelChanges (lv : Line → Bool) : List Event → List (Line × Bool)
  | [] => []
  | .set l v :: rest =>
    if lv l = v then levelChanges lv rest else (l, v) :: levelChanges (fun x => if x = l then v else lv x) rest
  | .wait _ :: rest => levelChanges lv rest

/-- The levels of the lines after block reset (R231). -/
def resetLevels : Line → Bool
  | .cs => true
  | .clk => false
  | .data => false
  | .rst => !Config.rstActive

/-- Two traces are wire-equivalent (R10): the same level changes in the same interleaving. -/
def WireEquivalent (t u : List Event) : Prop := levelChanges resetLevels t = levelChanges resetLevels u

/-- The rising edges of CLK in a trace that starts with CLK at level `c` (R21, R120). -/
def risingEdges (c : Bool) : List Event → Nat
  | [] => 0
  | .set .clk v :: rest => (if v && !c then 1 else 0) + risingEdges v rest
  | _ :: rest => risingEdges c rest

/-- The holds of one class in a trace (R120). -/
def countHolds (t : Hold) (tr : List Event) : Nat := tr.count (.wait t)

/-- The least number of time units a hold lasts (R250). -/
def holdTime : Hold → Nat
  | .bit => Config.tBit
  | .rst => Config.tRst

/-- The least number of time units the holds of one class take in a trace (R120, R254); the spec does not say that the two
classes use the same unit (R250), so they are never added. -/
def minTime (t : Hold) (tr : List Event) : Nat := countHolds t tr * holdTime t

/-- The segment view `seg(h, i)` (R33): segment `i` of context `h` is on. -/
def State.seg (s : State) (h : Fin Config.nseg) (i : Nat) : Bool := (s.memRead ⟨h, segByte i⟩).getLsbD (segBit i)

/-- The bitmap a context's buffer holds: bit `4 - c` of row `r` is segment `5 r + c` (R184). -/
def State.segRows (s : State) (h : Fin Config.nseg) : Rows Nat :=
  let row (r : Nat) : Nat :=
    (if s.seg h (5 * r) then 16 else 0) + (if s.seg h (5 * r + 1) then 8 else 0)
      + (if s.seg h (5 * r + 2) then 4 else 0) + (if s.seg h (5 * r + 3) then 2 else 0)
      + (if s.seg h (5 * r + 4) then 1 else 0)
  ⟨row 0, row 1, row 2, row 3, row 4, row 5, row 6⟩

end Sys2Proof.Machine
end

