-- ==== Sys2Proof/Safety.lean ====
section
/-! DEFINITION. What holds of every state a run reaches, in the terms the statements use. -/

namespace Sys2Proof.Safety

open Sys2Proof.Machine

/-- The phases in which chip-select is active (R112). -/
def inFrame : Phase → Bool
  | .setup => true
  | .holdLow => true
  | .rise => true
  | .holdHigh => true
  | .csRelease => true
  | _ => false

/-- The phases of the controller reset pulse (R116). -/
def inPulse : Phase → Bool
  | .rCs => true
  | .rPre => true
  | .rPulse => true
  | .rRecover => true
  | _ => false

/-- The phases of a bit cell (R111, R112). -/
def inBit : Phase → Bool
  | .setup => true
  | .holdLow => true
  | .rise => true
  | .holdHigh => true
  | _ => false

/-- BUSY, seq and txq agree (R24 to R26): BUSY is 1 exactly while the sequencer is not IDLE, a bit cell is of a byte of the
queue, and the reset pulse runs only where there is a reset line (R23). -/
def ControlSound (s : State) : Prop :=
  (s.busy = true ↔ s.seq ≠ .idle) ∧
  ∀ p, s.seq = .run p →
    (inBit p.ph = true → p.k < s.txq.length) ∧ (inPulse p.ph = true → Config.hasRst = true)

/-- The line latches carry the last levels of the wire trace (R20, R38); CS is 0 exactly inside a frame (R12, R112); the RST
latch exists exactly when there is a reset line, which is active only between the pulse and the recovery (R23, R115); without
one the trace never drives it (R23). -/
def LinesSound (s : State) : Prop :=
  s.cs = levelAfter .cs true s.trace ∧
  s.clk = levelAfter .clk false s.trace ∧
  s.data = levelAfter .data false s.trace ∧
  s.rst = (if Config.hasRst then some (levelAfter .rst (!Config.rstActive) s.trace) else none) ∧
  (s.cs = false ↔ ∃ p, s.seq = .run p ∧ inFrame p.ph = true) ∧
  (s.rst = some Config.rstActive → ∃ p, s.seq = .run p ∧ p.ph = .rRecover) ∧
  (Config.hasRst = false → ∀ v, Event.set .rst v ∉ s.trace)

/-- The buffers of SEGBUF are in canonical form, inside the space (R51), and every valid context has a legal binding and a
buffer in the format of R83: header bytes, bit 0 of each column byte 0 (R32, R33). -/
def ContextsSound (s : State) : Prop :=
  Memory.wf s.segbuf = true ∧
  (∀ c ∈ s.segbuf, c.1 < Config.nseg * Config.bufLen) ∧
  ∀ h : Fin Config.nseg, (s.context h).valid = true →
    (s.context h).digit.toNat ≤ 16 ∧
    144 ≤ (s.context h).slot.toNat ∧ (s.context h).slot.toNat ≤ 159 ∧
    s.memRead ⟨h, 0⟩ = Config.opRamwr ∧
    s.memRead ⟨h, 1⟩ = slotOffset (s.context h).slot.toNat ∧
    ∀ k : Fin Config.bufLen, 2 ≤ k.val → (s.memRead ⟨h, k⟩).getLsbD 0 = false

/-- FAULT, ERRCODE and the response agree (R26, R27, R201): ERRCODE is one of the codes 0 to 16, 0 exactly while FAULT is 0;
an `INVALID(code)` response leaves that code in ERRCODE; no response stands while a request runs. -/
def FlagsSound (s : State) : Prop :=
  s.errcode.toNat ≤ 16 ∧
  (s.fault = true ↔ s.errcode ≠ 0#5) ∧
  (∀ code, s.resp = some (.invalid code) → s.errcode = errBits code) ∧
  (s.busy = true → s.resp = none)

/-- The invariant of the block. -/
def Inv (s : State) : Prop := ControlSound s ∧ LinesSound s ∧ ContextsSound s ∧ FlagsSound s

/-- Between requests: BUSY is 0, chip-select is inactive at the latch and at the observer, and every frame received so far is a
whole number of bytes (R118: the block never produces a malformed one). -/
def WireSound (s : State) : Prop :=
  s.busy = false ∧ s.cs = true ∧ (receive s.trace).cs = true ∧ ∀ f ∈ framesOf s.trace, f ≠ none

/-! ## The next states that the statements name

Each loads the latch as `State.accept` does, the fields that the request does not use kept (`notes/assumptions/29.md`). -/

/-- Request `i` has sent the one frame `bs` and nothing else has happened but what every request does: its operands are latched,
the response is `OK`, BUSY is 0 and the sequencer IDLE. Every other field is as it was. -/
def sent (i : Instr) (bs : Bytes) (s : State) : State :=
  { s with
    latch := i.onto s.latch
    txq := bs
    cs := true
    clk := if bs = [] then s.clk else true
    data := lastBit s.data bs
    trace := s.trace ++ sendTrace bs
    resp := some .ok
    busy := false
    seq := .idle }

/-- Request `i` has raised `InvalidArgument(code)` (R205): FAULT, ERRCODE and the response are written, the operands are latched.
Every other field is as it was. -/
def rejected (i : Instr) (code : ErrCode) (s : State) : State :=
  { s with
    latch := i.onto s.latch
    fault := true
    errcode := errBits code
    resp := some (.invalid code)
    busy := false
    seq := .idle }

/-- Request `i` has ended with `OK` without an event, leaving the contexts `cs` and the buffers `m`. Every other field is as it
was. -/
def settled (i : Instr) (cs : Vector Context Config.nseg) (m : Memory) (s : State) : State :=
  { s with
    latch := i.onto s.latch
    ctxs := cs
    segbuf := m
    resp := some .ok
    busy := false
    seq := .idle }

end Sys2Proof.Safety
end

