-- ==== Sys2Proof/Certificates/Slice0/Obligations.lean ====
section
/-! DEFINITION. The statements about the model, for the provers. Post-states (`sent`, `rejected`, `settled`) are record updates
of the state before, so each equation also says what stays as it was: every field it does not name. -/

open Sys2Proof Sys2Proof.Machine Sys2Proof.Safety

/-! ## Encodings -/

/-- R85, R86: the request port read back is the request presented, for every request whose operands fit the ports.
Rests on the spec's own decision D15. -/
def Obligations.RequestDecodeOfEncode : Prop :=
  ∀ i : Instr, i.wellFormed = true → decode (encode i) = .ok i

/-- R86: a decoded request fits the ports, and presenting it drives every signal it uses to what was read: no bit of a used
signal is dropped.
Rests on the spec's own decision D15. -/
def Obligations.RequestEncodeOfDecode : Prop :=
  ∀ (r : Request) (i : Instr), decode r = .ok i → i.wellFormed = true ∧ i.onto r = r

/-- R86: which request a selector stands for, and the port signals its operands come from.
Rests on the spec's own decision D15. -/
def Obligations.SelectorsChooseTheRequest : Prop :=
  ∀ r : Request,
    (r.op = 0#4 → decode r = .ok (.send (r.bytes.map BitVec.toNat))) ∧
    (r.op = 1#4 → decode r = .ok .creset) ∧
    (r.op = 2#4 → r.a = 0#8 → decode r = .ok .blankNormal) ∧
    (r.op = 2#4 → r.a = 1#8 → decode r = .ok .blankAllOn) ∧
    (r.op = 2#4 → r.a = 2#8 → decode r = .ok .blankAllOff) ∧
    (r.op = 3#4 → decode r = .ok (.dlen r.a.toNat)) ∧
    (r.op = 4#4 → decode r = .ok (.dim r.a.toNat)) ∧
    (r.op = 5#4 → decode r = .ok (.freq r.a.toNat)) ∧
    (r.op = 6#4 → decode r = .ok (.curs r.a.toNat r.b.toNat)) ∧
    (r.op = 7#4 → decode r = .ok (.defch r.a.toNat r.nrows.toNat (r.rows.map BitVec.toNat))) ∧
    (r.op = 8#4 → decode r = .ok (.segAttach r.h.toNat r.a.toNat r.b.toNat)) ∧
    (r.op = 9#4 → decode r = .ok (.segSet r.h.toNat r.a.toNat r.b.toNat)) ∧
    (r.op = 10#4 → decode r = .ok (.segUpdate r.h.toNat))

/-- R93, R130: decoding fails exactly on the reserved selectors 11 to 15, with `E_OP`, and on a `BLANK` whose mode is above 2,
with `E_MODE`.
Rests on the spec's own decisions D6, D15.
That the decoder answers the two codes, and not the request's meaning, is the model's choice (log 13): the rules say only that
the request raises them. -/
def Obligations.DecodeFailsExactlyOnReserved : Prop :=
  ∀ (r : Request) (c : ErrCode), decode r = .error c ↔
    (c = .op ∧ 11 ≤ r.op.toNat) ∨ (c = .mode ∧ r.op = 2#4 ∧ 2 < r.a.toNat)

/-- R153: every frame that the Command Encoder or the Character Transcoder emits for accepted operands is read back as the
request it came from.
Rests on the spec's own decisions D1 to D6. -/
def Obligations.FrameDecodeOfEncode : Prop :=
  (∀ n, 9 ≤ n → n ≤ 16 → decodeFrame [dlenByte n] = .dlen n) ∧
  (∀ v, v ≤ 7 → decodeFrame [dimByte v] = .dim v) ∧
  (∀ f, f ≤ 1 → decodeFrame [freqByte f] = .freq f) ∧
  decodeFrame [Config.blankNormal] = .blankNormal ∧
  decodeFrame [Config.blankAllOn] = .blankAllOn ∧
  decodeFrame [Config.blankAllOff] = .blankAllOff ∧
  (∀ p f, 1 ≤ p → p ≤ 16 → f ≤ 1 → decodeFrame (cursBytes p f) = .curs p f) ∧
  (∀ slot rows, 144 ≤ slot → slot ≤ 159 → (∀ x ∈ rows.toList, x ≤ 31) →
    decodeFrame (transcode slot rows) = .defch slot 7 rows)

/-- R84, R153: any frame of bytes is exactly the frame of the request it is read as.
Rests on the spec's own decision D24.
That a frame which is no command's is read as the `SEND` of its bytes is the model's choice (log 23): R153 says nothing of such
a frame. -/
def Obligations.FrameEncodeOfDecode : Prop :=
  ∀ bs : Bytes, encodeFrame (decodeFrame bs) = some bs

/-- R92, R154: the bytes of each encoder, for every accepted operand, lie in the region R92 gives the operation and carry its
operand; the display codes are 32 to 127 and 160 to 223, whatever `OP_FREQ` is (R53, R63); blanking commands are the three
constants and no other byte; the unassigned values are those that U6 lists.
Rests on the spec's own decisions D1 to D6.
That a frequency pair in a row of unassigned values other than `0xF6..0xFB` is classed as the frequency command is the model's
choice (log 28). -/
def Obligations.EncoderBytesStayInTheirRegions : Prop :=
  (∀ n, 9 ≤ n → n ≤ 16 → classify (dlenByte n) = .digitLength n) ∧
  (∀ v, v ≤ 7 → classify (dimByte v) = .dimmer v) ∧
  (∀ p f, 1 ≤ p → p ≤ 16 → f ≤ 1 → (cursBytes p f).map classify = [.cursor p, .autoInc (decide (f = 1))]) ∧
  classify Config.blankNormal = .blanking ∧ classify Config.blankAllOn = .blanking ∧
  classify Config.blankAllOff = .blanking ∧ classify Config.opRamwr = .ramWrite ∧
  (∀ slot, 144 ≤ slot → slot ≤ 159 → classify (BitVec.ofNat 8 slot) = .slotCode (slotOffset slot).toNat) ∧
  (∀ f, f ≤ 1 → classify (freqByte f) =
    if 0x90 ≤ (freqByte f).toNat ∧ (freqByte f).toNat ≤ 0x9F then .slotCode ((freqByte f).toNat - 144)
    else if (0x20 ≤ (freqByte f).toNat ∧ (freqByte f).toNat ≤ 0x7F) ∨ (0xA0 ≤ (freqByte f).toNat ∧ (freqByte f).toNat ≤ 0xDF)
    then .display
    else .frequency f) ∧
  (∀ b, classify b = .display ↔ (0x20 ≤ b.toNat ∧ b.toNat ≤ 0x7F) ∨ (0xA0 ≤ b.toNat ∧ b.toNat ≤ 0xDF)) ∧
  (∀ b, classify b = .blanking ↔ b = Config.blankNormal ∨ b = Config.blankAllOn ∨ b = Config.blankAllOff) ∧
  ∀ b, classify b = .unassigned ↔ b ≠ freqByte 0 ∧ b ≠ freqByte 1 ∧
    ((0x10 ≤ b.toNat ∧ b.toNat ≤ 0x1F) ∨ (0x80 ≤ b.toNat ∧ b.toNat ≤ 0x8F) ∨
      (0xF0 ≤ b.toNat ∧ b.toNat ≤ 0xF3 ∧ b ≠ Config.blankNormal ∧ b ≠ Config.blankAllOn ∧ b ≠ Config.blankAllOff) ∨
      (0xF6 ≤ b.toNat ∧ b.toNat ≤ 0xFB) ∨ 0xFD ≤ b.toNat)

/-- R6, R89, D5, D6: the open opcodes meet the spec's constraints: `OP_FREQ` is even, it and its successor are no other
command's byte, and the blanking constants are three distinct values of 0xF0 to 0xF3. -/
def Obligations.OpenOpcodesAreAdmissible : Prop :=
  Config.opFreq.getLsbD 0 = false ∧
  (∀ f, f ≤ 1 → 0x0F < (freqByte f).toNat ∧ ¬ (0xE0 ≤ (freqByte f).toNat ∧ (freqByte f).toNat ≤ 0xF5) ∧
    (freqByte f).toNat ≠ 0xFC) ∧
  (∀ k ∈ [Config.blankNormal, Config.blankAllOn, Config.blankAllOff], 0xF0 ≤ k.toNat ∧ k.toNat ≤ 0xF3) ∧
  [Config.blankNormal, Config.blankAllOn, Config.blankAllOff].Nodup

/-- R153: a few words written out from the spec's encodings.
Rests on the spec's own decisions D1 to D4, D15. -/
def Obligations.DecodedWordsAreRight : Prop :=
  decodeFrame [0x07#8] = .dlen 16 ∧ decodeFrame [0x0D#8] = .dim 5 ∧ decodeFrame [0xE0#8, 0xF5#8] = .curs 1 1 ∧
  decodeFrame [0xFC#8, 0x00#8, 0x30#8, 0x48#8, 0x24#8, 0x48#8, 0x30#8] = .defch 144 7 ⟨0, 10, 21, 17, 10, 4, 0⟩ ∧
  decode { Request.zero with op := 9#4, h := 15#4, a := 17#8, b := 1#8 } = .ok (.segSet 15 17 1)

/-! ## Character Transcoder -/

/-- R161: the header, and for each column and row the bit of the column byte; bit 0 of every column byte is 0.
Rests on the spec's own decision D7. -/
def Obligations.TranscodePlacesEveryDot : Prop :=
  ∀ (slot : Nat) (rows : Rows Nat), 144 ≤ slot → slot ≤ 159 →
    (transcode slot rows).length = 7 ∧
    (transcode slot rows)[0]? = some 0xFC#8 ∧
    (transcode slot rows)[1]? = some (BitVec.ofNat 8 (slot - 144)) ∧
    ∀ c, c ≤ 4 → ∃ b, (transcode slot rows)[2 + c]? = some b ∧ b.getLsbD 0 = false ∧
      ∀ r x, rows.toList[r]? = some x → b.getLsbD (7 - r) = x.testBit (4 - c)

/-- R163: the round trip, both ways. -/
def Obligations.TransposeRoundTrip : Prop :=
  (∀ (slot : Nat) (rows : Rows Nat), 144 ≤ slot → slot ≤ 159 → (∀ x ∈ rows.toList, x ≤ 31) →
    ∃ o s c0 c1 c2 c3 c4, transcode slot rows = [o, s, c0, c1, c2, c3, c4] ∧ rowsOfColumns c0 c1 c2 c3 c4 = rows) ∧
  (∀ (slot : Nat) (c0 c1 c2 c3 c4 : Byte), 144 ≤ slot → slot ≤ 159 → (∀ c ∈ [c0, c1, c2, c3, c4], c.getLsbD 0 = false) →
    (transcode slot (rowsOfColumns c0 c1 c2 c3 c4)).drop 2 = [c0, c1, c2, c3, c4])

/-! ## Serial Transport -/

/-- R110, R111: the events of a frame. Each bit, bit 7 of a byte first, is the five events of the bit cell, whose holds are of
at least one time unit. -/
def Obligations.SendTraceIsBitCells : Prop :=
  ∀ bs : Bytes, sendTrace bs =
    [Event.set .cs false] ++
    bs.flatMap (fun b => [7, 6, 5, 4, 3, 2, 1, 0].flatMap fun j =>
      [Event.set .clk false, .set .data (b.getLsbD j), .wait .bit, .set .clk true, .wait .bit]) ++
    [Event.set .cs true] ∧
    (∀ b : Bool, bitCell b = [.set .clk false, .set .data b, .wait .bit, .set .clk true, .wait .bit]) ∧ 1 ≤ holdTime .bit

/-- R120: counts of events by kind, rising edges and holds, and the least times. -/
def Obligations.TransportCounts : Prop :=
  (∀ bs : Bytes, (sendTrace bs).length = 2 + 40 * bs.length ∧
    (sendTrace bs).countP (fun e => match e with | .set .cs _ => true | _ => false) = 2 ∧
    (sendTrace bs).countP (fun e => match e with | .set .cs _ => false | .set _ _ => true | _ => false) =
      3 * (8 * bs.length) ∧
    countHolds .bit (sendTrace bs) = 2 * (8 * bs.length) ∧
    (∀ c, risingEdges c (sendTrace bs) = 8 * bs.length) ∧
    minTime .bit (sendTrace bs) = 16 * bs.length * Config.tBit) ∧
  (∀ a, (pulseTrace a).length = 6 ∧ minTime .rst (pulseTrace a) = 2 * Config.tRst ∧ 2 * Config.tRst = 20)

/-- R119: the transport law. A frame sent after any trace that leaves CS at 1 is received as exactly its bytes, whatever the
levels of CLK and DATA, and has eight rising edges a byte.
Rests on the spec's own decision D26. -/
def Obligations.TransportLaw : Prop :=
  ∀ (t : List Event) (bs : Bytes), levelAfter .cs true t = true →
    framesOf (t ++ sendTrace bs) = framesOf t ++ [some bs] ∧
    risingEdges (levelAfter .clk false t) (sendTrace bs) = 8 * bs.length

/-- R10 and R118: wire-equivalent traces are received as the same frames.
Rests on the spec's own decisions D23, D26. -/
def Obligations.WireEquivalentTracesHaveTheSameFrames : Prop :=
  ∀ t u : List Event, WireEquivalent t u → framesOf t = framesOf u

/-- R110, R113, R114: `SEND` sends the bytes in one frame, or rejects a value above 255 or a sequence over `SEND_MAX` with
`E_BYTE`.
Rests on the spec's own decisions D9, D15, D21.
The queue kept after a frame and the latch of a rejected request are the model's (log 11, 14).
What the latch fields that the request does not use hold is the model's choice (log 29). -/
def Obligations.SendTransmitsOneFrame : Prop :=
  ∀ (s : State) (bytes : List Nat), s.busy = false →
    exec (.send bytes) s =
      .next (if (∀ b ∈ bytes, b ≤ 255) ∧ (∀ m, Config.sendMax = some m → bytes.length ≤ m)
        then sent (.send bytes) (bytes.map (BitVec.ofNat 8)) s
        else rejected (.send bytes) .byte s)

/-- R115, R116, R117: `CRESET` emits the six events of the reset pulse where there is a reset line and leaves CS and RST
inactive; where there is none it emits nothing. No local state changes.
Rests on the spec's own decisions D10, D11, D12.
What the latch fields that the request does not use hold is the model's choice (log 29). -/
def Obligations.ControllerResetPulse : Prop :=
  ∀ s : State, s.busy = false →
    exec .creset s =
      .next (if Config.hasRst = true
        then { settled .creset s.ctxs s.segbuf s with
          cs := true
          rst := s.rst.map fun _ => !Config.rstActive
          trace := s.trace ++ [.set .cs true, .set .rst !Config.rstActive, .set .rst Config.rstActive, .wait .rst,
            .set .rst !Config.rstActive, .wait .rst] }
        else settled .creset s.ctxs s.segbuf s)

/-! ## Command Encoder -/

/-- R131 to R133: each blanking request sends its constant in one frame.
Rests on the spec's own decision D6.
The queue kept after the frame is the model's (log 11).
What the latch fields that the request does not use hold is the model's choice (log 29). -/
def Obligations.BlankingSendsItsConstant : Prop :=
  ∀ s : State, s.busy = false →
    exec .blankNormal s = .next (sent .blankNormal [Config.blankNormal] s) ∧
    exec .blankAllOn s = .next (sent .blankAllOn [Config.blankAllOn] s) ∧
    exec .blankAllOff s = .next (sent .blankAllOff [Config.blankAllOff] s)

/-- R130, on the request port: selector 2 sends the constant of mode 0, 1 or 2, and raises `E_MODE` (code 3) for any other.
Rests on the spec's own decisions D6, D17.
That the host goes on to its next request (`host := rest`), the queue kept after a frame and the latch of a rejected request are
the model's (log 2, 11, 14).
What the latch fields that the request does not use hold is the model's choice (log 29). -/
def Obligations.BlankOnThePort : Prop :=
  ∀ (s : State) (r : Request) (rest : List Request), s.busy = false → s.host = r :: rest → r.op = 2#4 →
    step s =
      .next (if 2 < r.a.toNat
        then { s with host := rest, latch := r, fault := true, errcode := 3#5, resp := some (.invalid .mode), busy := false,
                      seq := .idle }
        else
          let k := if r.a = 0#8 then Config.blankNormal else if r.a = 1#8 then Config.blankAllOn else Config.blankAllOff
          { s with host := rest, latch := r, txq := [k], cs := true, clk := true, data := k.getLsbD 0,
                   trace := s.trace ++ sendTrace [k], resp := some .ok, busy := false, seq := .idle })

/-- R135: `DLEN n` sends the byte `n - 9` for 9 to 16 and is rejected with `E_DLEN` outside.
The queue kept after a frame and the latch of a rejected request are the model's (log 11, 14).
What the latch fields that the request does not use hold is the model's choice (log 29). -/
def Obligations.DigitLengthResult : Prop :=
  ∀ (s : State) (n : Nat), s.busy = false →
    exec (.dlen n) s =
      .next (if n < 9 ∨ 16 < n then rejected (.dlen n) .dlen s else sent (.dlen n) [BitVec.ofNat 8 (n - 9)] s)

/-- R135, on the request port: selector 3 with operand `n` sends the byte `n - 9` in one frame for 9 to 16, and raises `E_DLEN`
with no event outside; an accepted request leaves FAULT and ERRCODE as they were. -/
def Obligations.DigitLengthOnThePort : Prop :=
  ∀ (s : State) (r : Request) (rest : List Request), s.busy = false → s.host = r :: rest → r.op = 3#4 →
    ∃ t, step s = .next t ∧ t.busy = false ∧
      if r.a.toNat < 9 ∨ 16 < r.a.toNat
      then t.trace = s.trace ∧ t.resp = some (.invalid .dlen)
      else t.trace = s.trace ++ sendTrace [0x00#8 ||| BitVec.ofNat 8 (r.a.toNat - 9)] ∧ t.resp = some .ok ∧
        t.fault = s.fault ∧ t.errcode = s.errcode

/-- R152: every command is `Encode`, a function of the operands alone that gives a cause code or one or two bytes, and then
either the exception with no event or the one frame of those bytes; it reads no state of the block and writes no context. -/
def Obligations.CommandIsEncodeThenSend : Prop :=
  ∀ i : Instr,
    (i = .blankNormal ∨ i = .blankAllOn ∨ i = .blankAllOff ∨ (∃ n, i = .dlen n) ∨ (∃ v, i = .dim v) ∨ (∃ f, i = .freq f) ∨
      ∃ p f, i = .curs p f) →
    ∃ enc : Except ErrCode Bytes, (∀ bs, enc = .ok bs → bs.length = 1 ∨ bs.length = 2) ∧
      ∀ s : State, s.busy = false → ∃ t, exec i s = .next t ∧ t.ctxs = s.ctxs ∧ t.segbuf = s.segbuf ∧
        (∀ code, enc = .error code → t.trace = s.trace ∧ t.resp = some (.invalid code)) ∧
        ∀ bs, enc = .ok bs → t.trace = s.trace ++ sendTrace bs ∧ t.resp = some .ok

/-- R140: `DIM v` sends the byte `8 + v` for 0 to 7 and is rejected with `E_DIM` outside.
Rests on the spec's own decision D2.
The queue kept after a frame and the latch of a rejected request are the model's (log 11, 14).
What the latch fields that the request does not use hold is the model's choice (log 29). -/
def Obligations.DimmerResult : Prop :=
  ∀ (s : State) (v : Nat), s.busy = false →
    exec (.dim v) s = .next (if 7 < v then rejected (.dim v) .dim s else sent (.dim v) [BitVec.ofNat 8 (8 + v)] s)

/-- R145: `FREQ f` sends `OP_FREQ | f` for 0 and 1 and is rejected with `E_FREQ` outside, whatever `OP_FREQ` is.
Rests on the spec's own decision D5.
The queue kept after a frame and the latch of a rejected request are the model's (log 11, 14).
What the latch fields that the request does not use hold is the model's choice (log 29). -/
def Obligations.FrequencyResult : Prop :=
  ∀ (s : State) (f : Nat), s.busy = false →
    exec (.freq f) s =
      .next (if 1 < f then rejected (.freq f) .freq s else sent (.freq f) [Config.opFreq ||| BitVec.ofNat 8 f] s)

/-- R150: `CURS p, f` sends the two bytes in one frame for a position of 1 to 16 and a flag of 0 or 1; a bad position is
rejected with `E_POS`, and only then a bad flag with `E_AINC`.
Rests on the spec's own decision D3.
The queue kept after a frame and the latch of a rejected request are the model's (log 11, 14).
What the latch fields that the request does not use hold is the model's choice (log 29). -/
def Obligations.CursorResult : Prop :=
  ∀ (s : State) (p f : Nat), s.busy = false →
    exec (.curs p f) s =
      .next (if p < 1 ∨ 16 < p then rejected (.curs p f) .pos s
        else if 1 < f then rejected (.curs p f) .ainc s
        else sent (.curs p f) [BitVec.ofNat 8 (0xE0 + (p - 1)), BitVec.ofNat 8 (0xF4 + f)] s)

/-- R160: `DEFCH` sends the seven bytes of `Transcode` in one frame; a bad slot, a bad row count and a bad row are rejected, in
that order.
Rests on the spec's own decisions D7, D21.
The queue kept after a frame and the latch of a rejected request are the model's (log 11, 14).
What the latch fields that the request does not use hold is the model's choice (log 29). -/
def Obligations.DefineCharacterResult : Prop :=
  ∀ (s : State) (slot nrows : Nat) (rows : Rows Nat), s.busy = false →
    exec (.defch slot nrows rows) s =
      .next (if slot < 144 ∨ 159 < slot then rejected (.defch slot nrows rows) .slot s
        else if nrows ≠ 7 then rejected (.defch slot nrows rows) .rows s
        else if ∃ x ∈ rows.toList, 31 < x then rejected (.defch slot nrows rows) .rowval s
        else sent (.defch slot nrows rows) (transcode slot rows) s)

/-! ## Segment Mapper -/

/-- R175: `SEG.ATTACH` binds the context and blanks its buffer, and nothing else; a bad context, digit and slot are rejected, in
that order.
Rests on the spec's own decisions D19, D20.
The latch of a rejected request is the model's (log 14).
What the latch fields that the request does not use hold is the model's choice (log 29). -/
def Obligations.AttachResult : Prop :=
  ∀ (s : State) (d slot : Nat), s.busy = false →
    (∀ h : Nat, 16 ≤ h → exec (.segAttach h d slot) s = .next (rejected (.segAttach h d slot) .ctx s)) ∧
    (∀ h : Fin 16,
      (16 < d → exec (.segAttach h d slot) s = .next (rejected (.segAttach h d slot) .digit s)) ∧
      (d ≤ 16 → slot < 144 ∨ 159 < slot → exec (.segAttach h d slot) s = .next (rejected (.segAttach h d slot) .slot s)) ∧
      (d ≤ 16 → 144 ≤ slot → slot ≤ 159 → ∃ cs m,
        exec (.segAttach h d slot) s = .next (settled (.segAttach h d slot) cs m s) ∧
        (∀ h' : Fin 16, cs[h'] = if h' = h then ⟨true, BitVec.ofNat 5 d, BitVec.ofNat 8 slot⟩ else s.context h') ∧
        ∀ a : BufAddr, Memory.read m a.key =
          if a.h = h
          then (if a.k.val = 0 then 0xFC#8 else if a.k.val = 1 then BitVec.ofNat 8 (slot - 144) else 0x00#8)
          else s.memRead a))

/-- R176: after a successful attach all 35 segments are off and the buffer is that of the blank bitmap. -/
def Obligations.AttachBlanksEverySegment : Prop :=
  ∀ (s t : State) (h : Fin 16) (d slot : Nat), s.busy = false → d ≤ 16 → 144 ≤ slot → slot ≤ 159 →
    exec (.segAttach h d slot) s = .next t →
    (∀ j, j ≤ 34 → t.seg h j = false) ∧ t.bufBytes h = transcode slot (Rows.all 0)

/-- R180: `SEG.SET` changes one bit of one byte of the context's buffer, and nothing else; the checks come in the rule's order.
Rests on the spec's own decisions D8, D25.
The latch of a rejected request is the model's (log 14).
What the latch fields that the request does not use hold is the model's choice (log 29). -/
def Obligations.SetSegmentResult : Prop :=
  ∀ (s : State) (i v : Nat), s.busy = false →
    (∀ h : Nat, 16 ≤ h → exec (.segSet h i v) s = .next (rejected (.segSet h i v) .ctx s)) ∧
    (∀ h : Fin 16,
      ((s.context h).valid = false → exec (.segSet h i v) s = .next (rejected (.segSet h i v) .unattached s)) ∧
      ((s.context h).valid = true → 34 < i → exec (.segSet h i v) s = .next (rejected (.segSet h i v) .segidx s)) ∧
      ((s.context h).valid = true → i ≤ 34 → 1 < v →
        exec (.segSet h i v) s = .next (rejected (.segSet h i v) .segval s)) ∧
      ((s.context h).valid = true → i ≤ 34 → v ≤ 1 → ∃ m,
        exec (.segSet h i v) s = .next (settled (.segSet h i v) s.ctxs m s) ∧
        ∀ a : BufAddr, Memory.read m a.key =
          if a.h = h ∧ a.k.val = 2 + i % 5
          then (if v = 1 then s.memRead a ||| (1#8 <<< (7 - i / 5)) else s.memRead a &&& (0xFF#8 ^^^ (1#8 <<< (7 - i / 5))))
          else s.memRead a))

/-- R180: the 35 segments are 35 different bits, in bytes 2 to 6 and bits 1 to 7.
Rests on the spec's own decision D8. -/
def Obligations.SegmentsDoNotAlias : Prop :=
  (∀ i, i ≤ 34 → 2 ≤ (segByte i).val ∧ (segByte i).val ≤ 6 ∧ 1 ≤ segBit i ∧ segBit i ≤ 7) ∧
  ∀ i j, i ≤ 34 → j ≤ 34 → segByte i = segByte j → segBit i = segBit j → i = j

/-- R182 (a), (b): the segment set reads as set, every other segment as before. -/
def Obligations.SetChangesOneSegment : Prop :=
  ∀ (s t : State) (h : Fin 16) (i v : Nat), s.busy = false → (s.context h).valid = true → i ≤ 34 → v ≤ 1 →
    exec (.segSet h i v) s = .next t →
    t.seg h i = decide (v = 1) ∧ ∀ j, j ≤ 34 → j ≠ i → t.seg h j = s.seg h j

/-- R182 (c), (d): on then off restores a buffer whose segment was off; setting twice is setting once. -/
def Obligations.SetInverseAndIdempotent : Prop :=
  ∀ (s t : State) (h : Fin 16) (i v : Nat), s.busy = false → (s.context h).valid = true → i ≤ 34 → v ≤ 1 →
    exec (.segSet h i v) s = .next t →
    (∃ u, exec (.segSet h i v) t = .next u ∧ ∀ a, u.memRead a = t.memRead a) ∧
    (v = 1 → s.seg h i = false → ∃ u, exec (.segSet h i 0) t = .next u ∧ u.bufBytes h = s.bufBytes h ∧
      ∀ a, u.memRead a = s.memRead a)

/-- R182 (e): two sets of different segments commute, in one context or in two. -/
def Obligations.SetsCommute : Prop :=
  ∀ (s t u : State) (h h' : Fin 16) (i j v w : Nat), s.busy = false → (s.context h).valid = true →
    (s.context h').valid = true → i ≤ 34 → j ≤ 34 → v ≤ 1 → w ≤ 1 → (h, i) ≠ (h', j) →
    exec (.segSet h i v) s = .next t → exec (.segSet h' j w) s = .next u →
    ∃ t' u', exec (.segSet h' j w) t = .next t' ∧ exec (.segSet h i v) u = .next u' ∧ ∀ a, t'.memRead a = u'.memRead a

/-- R181: `SEG.SET`, accepted or rejected, drives no line and adds no event, so the controller receives nothing. -/
def Obligations.SetIsSilentOnTheWire : Prop :=
  ∀ (s t : State) (h i v : Nat), exec (.segSet h i v) s = .next t →
    t.trace = s.trace ∧ t.cs = s.cs ∧ t.clk = s.clk ∧ t.data = s.data ∧ t.rst = s.rst ∧ framesOf t.trace = framesOf s.trace

/-- R185, R186: `SEG.UPDATE` sends the buffer, the cursor command of the bound digit and the slot code in three frames and
changes no context; a bad context, an unattached one and digit 0 are rejected before the first event.
Rests on the spec's own decision D19.
The queue kept after the last frame and the latch of a rejected request are the model's (log 11, 14).
What the latch fields that the request does not use hold is the model's choice (log 29). -/
def Obligations.UpdateResult : Prop :=
  ∀ s : State, s.busy = false →
    (∀ h : Nat, 16 ≤ h → exec (.segUpdate h) s = .next (rejected (.segUpdate h) .ctx s)) ∧
    (∀ h : Fin 16,
      ((s.context h).valid = false → exec (.segUpdate h) s = .next (rejected (.segUpdate h) .unattached s)) ∧
      ((s.context h).valid = true → (s.context h).digit = 0#5 →
        exec (.segUpdate h) s = .next (rejected (.segUpdate h) .pos s)) ∧
      ((s.context h).valid = true → (s.context h).digit ≠ 0#5 →
        exec (.segUpdate h) s =
          .next { sent (.segUpdate h) [(s.context h).slot] s with
            trace := s.trace ++
              (sendTrace [s.memRead ⟨h, 0⟩, s.memRead ⟨h, 1⟩, s.memRead ⟨h, 2⟩, s.memRead ⟨h, 3⟩, s.memRead ⟨h, 4⟩,
                  s.memRead ⟨h, 5⟩, s.memRead ⟨h, 6⟩] ++
                sendTrace [0xE0#8 ||| BitVec.ofNat 8 ((s.context h).digit.toNat - 1), 0xF4#8] ++
                sendTrace [(s.context h).slot]) }))

/-- R187: the trace of an update, its 406 events and 80 rising edges, and the three frames the controller receives. -/
def Obligations.UpdateCountsAndFrames : Prop :=
  ∀ (s t : State) (h : Fin 16), s.busy = false → (s.context h).valid = true → (s.context h).digit ≠ 0#5 →
    levelAfter .cs true s.trace = true → exec (.segUpdate h) s = .next t →
    ∃ evs, evs = sendTrace (s.bufBytes h) ++
        sendTrace [0xE0#8 ||| BitVec.ofNat 8 ((s.context h).digit.toNat - 1), 0xF4#8] ++
        sendTrace [(s.context h).slot] ∧
      t.trace = s.trace ++ evs ∧ evs.length = 406 ∧ (∀ c, risingEdges c evs = 80) ∧
      framesOf t.trace = framesOf s.trace ++
        [some (s.bufBytes h), some [0xE0#8 ||| BitVec.ofNat 8 ((s.context h).digit.toNat - 1), 0xF4#8],
          some [(s.context h).slot]]

/-- R184: the buffer of a sound context is the transcoding of the bitmap its segments show, that bitmap is what the inverse
transpose returns, and its frame is the one `DEFCH` of that bitmap sends. -/
def Obligations.BufferIsTheBitmapOfItsSegments : Prop :=
  ∀ (s : State) (h : Fin 16), ContextsSound s → (s.context h).valid = true →
    s.bufBytes h = transcode (s.context h).slot.toNat (s.segRows h) ∧
    rowsOfColumns (s.memRead ⟨h, 2⟩) (s.memRead ⟨h, 3⟩) (s.memRead ⟨h, 4⟩) (s.memRead ⟨h, 5⟩) (s.memRead ⟨h, 6⟩) =
      s.segRows h ∧
    (∀ x ∈ (s.segRows h).toList, x ≤ 31) ∧
    ∀ t : State, t.busy = false → ∃ u, exec (.defch (s.context h).slot.toNat 7 (s.segRows h)) t = .next u ∧
      u.trace = t.trace ++ sendTrace (s.bufBytes h)

/-! ## The exception, the flags, the response -/

/-- R201: the sixteen cause codes.
Rests on the spec's own decision D17. -/
def Obligations.CauseCodes : Prop :=
  [ErrCode.op, .byte, .mode, .dlen, .dim, .freq, .pos, .ainc, .slot, .rows, .rowval, .digit, .segidx, .segval, .ctx,
    .unattached].map (fun c => (errBits c).toNat) = [1, 2, 3, 4, 5, 6, 7, 8, 9, 10, 11, 12, 13, 14, 15, 16]

/-- R205, R206: a request that raises `InvalidArgument(code)` has the exception's effect on the block and no other, whatever the
request, presented to `exec` or standing on the port. Besides, its operands are latched and, from the port, the host goes on to
its next request (`host := rest`).
Rests on the spec's own decisions D17, D19.
The latch of a rejected request and the host's list of requests are the model's (log 14, 2).
What the latch fields that the request does not use hold is the model's choice (log 29). -/
def Obligations.ExceptionIsPrecise : Prop :=
  (∀ (i : Instr) (s t : State) (code : ErrCode), s.busy = false → exec i s = .next t → t.resp = some (.invalid code) →
    t = rejected i code s) ∧
  (∀ (s t : State) (r : Request) (rest : List Request) (code : ErrCode), s.busy = false → s.host = r :: rest →
    step s = .next t → t.resp = some (.invalid code) →
    t = { s with host := rest, latch := r, fault := true, errcode := errBits code, resp := some (.invalid code),
                 busy := false, seq := .idle })

/-- R27, R121, R203: every request to an idle block ends, with a response, BUSY 0 and the sequencer IDLE; an `OK` leaves FAULT
and ERRCODE as they were.
Rests on the spec's own decision D17.
The host's list of requests, which `exec` leaves alone, is the model's (log 2). -/
def Obligations.EveryRequestIsAnswered : Prop :=
  ∀ (i : Instr) (s : State), s.busy = false →
    ∃ t r, exec i s = .next t ∧ t.resp = some r ∧ t.busy = false ∧ t.seq = .idle ∧ t.host = s.host ∧
      (r = .ok → t.fault = s.fault ∧ t.errcode = s.errcode)

/-- R26, R208: no step clears FAULT, and ERRCODE changes only to the cause code of an exception that the step answers.
Rests on the spec's own decision D17. -/
def Obligations.FaultIsSticky : Prop :=
  ∀ s t : State, step s = .next t →
    (s.fault = true → t.fault = true) ∧
    ((t.fault = s.fault ∧ t.errcode = s.errcode) ∨
      ∃ code, t.fault = true ∧ t.errcode = errBits code ∧ t.resp = some (.invalid code))

/-- R93, R201: a reserved selector on the port raises `E_OP` (code 1) and emits nothing. Besides, the port is latched and the host
goes on to its next request (`host := rest`).
Rests on the spec's own decisions D15, D17.
The latch of a rejected request and the host's list of requests are the model's (log 14, 2).
What the latch fields that the request does not use hold is the model's choice (log 29). -/
def Obligations.ReservedSelectorRaises : Prop :=
  ∀ (s : State) (r : Request) (rest : List Request), s.busy = false → s.host = r :: rest → 11 ≤ r.op.toNat →
    step s = .next { s with host := rest, latch := r, fault := true, errcode := 1#5, resp := some (.invalid .op),
                            busy := false, seq := .idle }

/-! ## Steps -/

/-- R28, R85: when the port holds a request that decodes to `i`, one step takes it off the host's hands, latches the port and
is then `exec` of `i`.
Rests on the spec's own decision D15.
That the requests the host goes on to are a field of the state is the model's (log 2).
What the latch fields that the request does not use hold is the model's choice (log 29). -/
def Obligations.StepRunsTheDecodedRequest : Prop :=
  ∀ (s : State) (r : Request) (rest : List Request) (i : Instr), s.busy = false → s.host = r :: rest → decode r = .ok i →
    step s = exec i { s with latch := r, host := rest }

/-- R85, R241: a request presented while BUSY is 1 has no effect, and a step of a busy block takes no request and keeps the
latched operands.
Rests on the spec's own decision D31.
The host's list of requests is the model's (log 2). -/
def Obligations.BusyBlockAcceptsNothing : Prop :=
  (∀ (i : Instr) (s : State), s.busy = true → exec i s = .next s) ∧
  (∀ s t : State, s.busy = true → step s = .next t → t.host = s.host ∧ t.latch = s.latch ∧ t.fault = s.fault ∧
    t.errcode = s.errcode ∧ t.ctxs = s.ctxs ∧ t.segbuf = s.segbuf)

/-- R215 (the model's own choice of what a step is then, log 18, and of the host's list, log 2): an idle block with no request on
its port stays as it is. -/
def Obligations.IdleBlockHoldsItsState : Prop :=
  ∀ s : State, s.busy = false → s.host = [] → step s = .next s

/-- R65, R10: a step only adds events at the end of the wire trace. -/
def Obligations.TraceOnlyGrows : Prop :=
  ∀ s t : State, step s = .next t → ∃ evs, t.trace = s.trace ++ evs

/-- R32, R33, R51: only `SEG.ATTACH` changes a binding or the header bytes of a buffer, only it and `SEG.SET` change a buffer
byte, and only in the context they name. -/
def Obligations.OnlyAttachAndSetWriteContexts : Prop :=
  ∀ (i : Instr) (s t : State), exec i s = .next t →
    ((∀ h d slot, i ≠ .segAttach h d slot) →
      t.ctxs = s.ctxs ∧ ∀ a : BufAddr, a.k.val ≤ 1 → t.memRead a = s.memRead a) ∧
    ((∀ h d slot, i ≠ .segAttach h d slot) → (∀ h j v, i ≠ .segSet h j v) → t.segbuf = s.segbuf) ∧
    (∀ h d slot, i = .segAttach h d slot → ∀ a : BufAddr, a.h.val ≠ h → t.memRead a = s.memRead a ∧ t.context a.h = s.context a.h) ∧
    (∀ h j v, i = .segSet h j v → ∀ a : BufAddr, a.h.val ≠ h → t.memRead a = s.memRead a)

/-- R34, R152: what a transport, command or character request puts on the wire and answers depends on its operands alone, not
on the state it meets: the block keeps no configuration. -/
def Obligations.CommandsDependOnOperandsOnly : Prop :=
  ∀ i : Instr, (∀ h d slot, i ≠ .segAttach h d slot) → (∀ h j v, i ≠ .segSet h j v) → (∀ h, i ≠ .segUpdate h) →
    ∃ evs r, ∀ s : State, s.busy = false → ∃ t, exec i s = .next t ∧ t.trace = s.trace ++ evs ∧ t.resp = some r

/-- R22: no request reads a line or the trace. Two states that differ in these alone see the same events, and end in states
that differ in these alone. -/
def Obligations.LinesAreNeverRead : Prop :=
  ∀ (i : Instr) (s : State) (c k d : Bool) (r : Option Bool) (tr : List Event), s.busy = false →
    ∃ evs t u, exec i s = .next t ∧ exec i { s with cs := c, clk := k, data := d, rst := r, trace := tr } = .next u ∧
      t.trace = s.trace ++ evs ∧ u.trace = tr ++ evs ∧
      u = { t with cs := u.cs, clk := u.clk, data := u.data, rst := u.rst, trace := u.trace }

/-- R112, R116: carrying a request out one small step at a time ends in the state its big step gives.
Rests on the spec's own decision D29.
Where the small steps read the context of an update is the model's (log 21). -/
def Obligations.SmallStepsAmountToTheBigStep : Prop :=
  ∀ (i : Instr) (s : State), s.busy = false → ∃ n, runBusy n (startRequest i s) = exec i s

/-- R121: a request in progress ends after finitely many small steps, with `OK`.
Rests on the spec's own decision D29. -/
def Obligations.RequestInProgressEnds : Prop :=
  ∀ s : State, ControlSound s → s.busy = true →
    ∃ n t, runBusy n s = .next t ∧ t.busy = false ∧ t.seq = .idle ∧ t.resp = some .ok

/-! ## Reset and invariants -/

/-- R231, R232, R234, R235: the block right after reset, the values the spec gives.
Rests on the spec's own decision D14. -/
def Obligations.ResetState : Prop :=
  State.reset.cs = true ∧ State.reset.clk = false ∧ State.reset.data = false ∧
  State.reset.rst = (if Config.hasRst = true then some (!Config.rstActive) else none) ∧
  State.reset.seq = .idle ∧ State.reset.txq = [] ∧ State.reset.busy = false ∧ State.reset.fault = false ∧
  State.reset.errcode = 0#5 ∧ State.reset.resp = none ∧
  (∀ h : Fin 16, (State.reset.context h).valid = false) ∧ State.reset.trace = []

/-- The invariant holds after reset. -/
def Obligations.InvariantHoldsAtReset : Prop := Inv State.reset

/-- Every step from a state with the invariant leads to a state with it.
That no response stands while a request runs is the model's (log 12). -/
def Obligations.EveryStepKeepsTheInvariant : Prop :=
  ∀ s t : State, Inv s → step s = .next t → Inv t

/-- No step from a sound state stops: the block has no fault and refuses nothing. -/
def Obligations.SoundStatesNeverStop : Prop :=
  ∀ s : State, ControlSound s → ∃ t, step s = .next t

/-- A block between requests after reset: idle, CS inactive, nothing malformed received. -/
def Obligations.WireIsSoundAtReset : Prop := WireSound State.reset

/-- R118: no step makes the block produce a malformed frame.
Rests on the spec's own decision D26. -/
def Obligations.EveryStepKeepsTheWireSound : Prop :=
  ∀ s t : State, WireSound s → step s = .next t → WireSound t
end

