-- ==== Sys2Proof/Laws/State.lean ====
section
/-! SUPPORT. One lemma per field per update of the state: no later proof unfolds a record update. -/

namespace Sys2Proof.Machine

variable (s : State)

/-! ### `State.record` -/
@[simp] theorem State.record_cs (e : Event) : (s.record e).cs = s.cs := rfl
@[simp] theorem State.record_clk (e : Event) : (s.record e).clk = s.clk := rfl
@[simp] theorem State.record_data (e : Event) : (s.record e).data = s.data := rfl
@[simp] theorem State.record_rst (e : Event) : (s.record e).rst = s.rst := rfl
@[simp] theorem State.record_seq (e : Event) : (s.record e).seq = s.seq := rfl
@[simp] theorem State.record_txq (e : Event) : (s.record e).txq = s.txq := rfl
@[simp] theorem State.record_busy (e : Event) : (s.record e).busy = s.busy := rfl
@[simp] theorem State.record_fault (e : Event) : (s.record e).fault = s.fault := rfl
@[simp] theorem State.record_errcode (e : Event) : (s.record e).errcode = s.errcode := rfl
@[simp] theorem State.record_resp (e : Event) : (s.record e).resp = s.resp := rfl
@[simp] theorem State.record_latch (e : Event) : (s.record e).latch = s.latch := rfl
@[simp] theorem State.record_ctxs (e : Event) : (s.record e).ctxs = s.ctxs := rfl
@[simp] theorem State.record_segbuf (e : Event) : (s.record e).segbuf = s.segbuf := rfl
@[simp] theorem State.record_trace (e : Event) : (s.record e).trace = s.trace ++ [e] := rfl
@[simp] theorem State.record_host (e : Event) : (s.record e).host = s.host := rfl

/-! ### `State.hold` -/
@[simp] theorem State.hold_cs (t : Hold) : (s.hold t).cs = s.cs := rfl
@[simp] theorem State.hold_clk (t : Hold) : (s.hold t).clk = s.clk := rfl
@[simp] theorem State.hold_data (t : Hold) : (s.hold t).data = s.data := rfl
@[simp] theorem State.hold_rst (t : Hold) : (s.hold t).rst = s.rst := rfl
@[simp] theorem State.hold_seq (t : Hold) : (s.hold t).seq = s.seq := rfl
@[simp] theorem State.hold_txq (t : Hold) : (s.hold t).txq = s.txq := rfl
@[simp] theorem State.hold_busy (t : Hold) : (s.hold t).busy = s.busy := rfl
@[simp] theorem State.hold_fault (t : Hold) : (s.hold t).fault = s.fault := rfl
@[simp] theorem State.hold_errcode (t : Hold) : (s.hold t).errcode = s.errcode := rfl
@[simp] theorem State.hold_resp (t : Hold) : (s.hold t).resp = s.resp := rfl
@[simp] theorem State.hold_latch (t : Hold) : (s.hold t).latch = s.latch := rfl
@[simp] theorem State.hold_ctxs (t : Hold) : (s.hold t).ctxs = s.ctxs := rfl
@[simp] theorem State.hold_segbuf (t : Hold) : (s.hold t).segbuf = s.segbuf := rfl
@[simp] theorem State.hold_trace (t : Hold) : (s.hold t).trace = s.trace ++ [.wait t] := rfl
@[simp] theorem State.hold_host (t : Hold) : (s.hold t).host = s.host := rfl

/-! ### `State.flagError` -/
@[simp] theorem State.flagError_cs (c : ErrCode) : (s.flagError c).cs = s.cs := rfl
@[simp] theorem State.flagError_clk (c : ErrCode) : (s.flagError c).clk = s.clk := rfl
@[simp] theorem State.flagError_data (c : ErrCode) : (s.flagError c).data = s.data := rfl
@[simp] theorem State.flagError_rst (c : ErrCode) : (s.flagError c).rst = s.rst := rfl
@[simp] theorem State.flagError_seq (c : ErrCode) : (s.flagError c).seq = s.seq := rfl
@[simp] theorem State.flagError_txq (c : ErrCode) : (s.flagError c).txq = s.txq := rfl
@[simp] theorem State.flagError_busy (c : ErrCode) : (s.flagError c).busy = s.busy := rfl
@[simp] theorem State.flagError_fault (c : ErrCode) : (s.flagError c).fault = true := rfl
@[simp] theorem State.flagError_errcode (c : ErrCode) : (s.flagError c).errcode = errBits c := rfl
@[simp] theorem State.flagError_resp (c : ErrCode) : (s.flagError c).resp = s.resp := rfl
@[simp] theorem State.flagError_latch (c : ErrCode) : (s.flagError c).latch = s.latch := rfl
@[simp] theorem State.flagError_ctxs (c : ErrCode) : (s.flagError c).ctxs = s.ctxs := rfl
@[simp] theorem State.flagError_segbuf (c : ErrCode) : (s.flagError c).segbuf = s.segbuf := rfl
@[simp] theorem State.flagError_trace (c : ErrCode) : (s.flagError c).trace = s.trace := rfl
@[simp] theorem State.flagError_host (c : ErrCode) : (s.flagError c).host = s.host := rfl

/-! ### `State.respond` -/
@[simp] theorem State.respond_cs (r : Response) : (s.respond r).cs = s.cs := rfl
@[simp] theorem State.respond_clk (r : Response) : (s.respond r).clk = s.clk := rfl
@[simp] theorem State.respond_data (r : Response) : (s.respond r).data = s.data := rfl
@[simp] theorem State.respond_rst (r : Response) : (s.respond r).rst = s.rst := rfl
@[simp] theorem State.respond_seq (r : Response) : (s.respond r).seq = .idle := rfl
@[simp] theorem State.respond_txq (r : Response) : (s.respond r).txq = s.txq := rfl
@[simp] theorem State.respond_busy (r : Response) : (s.respond r).busy = false := rfl
@[simp] theorem State.respond_fault (r : Response) : (s.respond r).fault = s.fault := rfl
@[simp] theorem State.respond_errcode (r : Response) : (s.respond r).errcode = s.errcode := rfl
@[simp] theorem State.respond_resp (r : Response) : (s.respond r).resp = some r := rfl
@[simp] theorem State.respond_latch (r : Response) : (s.respond r).latch = s.latch := rfl
@[simp] theorem State.respond_ctxs (r : Response) : (s.respond r).ctxs = s.ctxs := rfl
@[simp] theorem State.respond_segbuf (r : Response) : (s.respond r).segbuf = s.segbuf := rfl
@[simp] theorem State.respond_trace (r : Response) : (s.respond r).trace = s.trace := rfl
@[simp] theorem State.respond_host (r : Response) : (s.respond r).host = s.host := rfl

/-! ### `State.raise` -/
@[simp] theorem State.raise_cs (c : ErrCode) : (s.raise c).cs = s.cs := rfl
@[simp] theorem State.raise_clk (c : ErrCode) : (s.raise c).clk = s.clk := rfl
@[simp] theorem State.raise_data (c : ErrCode) : (s.raise c).data = s.data := rfl
@[simp] theorem State.raise_rst (c : ErrCode) : (s.raise c).rst = s.rst := rfl
@[simp] theorem State.raise_seq (c : ErrCode) : (s.raise c).seq = .idle := rfl
@[simp] theorem State.raise_txq (c : ErrCode) : (s.raise c).txq = s.txq := rfl
@[simp] theorem State.raise_busy (c : ErrCode) : (s.raise c).busy = false := rfl
@[simp] theorem State.raise_fault (c : ErrCode) : (s.raise c).fault = true := rfl
@[simp] theorem State.raise_errcode (c : ErrCode) : (s.raise c).errcode = errBits c := rfl
@[simp] theorem State.raise_resp (c : ErrCode) : (s.raise c).resp = some (.invalid c) := rfl
@[simp] theorem State.raise_latch (c : ErrCode) : (s.raise c).latch = s.latch := rfl
@[simp] theorem State.raise_ctxs (c : ErrCode) : (s.raise c).ctxs = s.ctxs := rfl
@[simp] theorem State.raise_segbuf (c : ErrCode) : (s.raise c).segbuf = s.segbuf := rfl
@[simp] theorem State.raise_trace (c : ErrCode) : (s.raise c).trace = s.trace := rfl
@[simp] theorem State.raise_host (c : ErrCode) : (s.raise c).host = s.host := rfl

/-! ### `State.accept` -/
@[simp] theorem State.accept_cs (i : Instr) : (s.accept i).cs = s.cs := rfl
@[simp] theorem State.accept_clk (i : Instr) : (s.accept i).clk = s.clk := rfl
@[simp] theorem State.accept_data (i : Instr) : (s.accept i).data = s.data := rfl
@[simp] theorem State.accept_rst (i : Instr) : (s.accept i).rst = s.rst := rfl
@[simp] theorem State.accept_seq (i : Instr) : (s.accept i).seq = s.seq := rfl
@[simp] theorem State.accept_txq (i : Instr) : (s.accept i).txq = s.txq := rfl
@[simp] theorem State.accept_busy (i : Instr) : (s.accept i).busy = true := rfl
@[simp] theorem State.accept_fault (i : Instr) : (s.accept i).fault = s.fault := rfl
@[simp] theorem State.accept_errcode (i : Instr) : (s.accept i).errcode = s.errcode := rfl
@[simp] theorem State.accept_resp (i : Instr) : (s.accept i).resp = none := rfl
@[simp] theorem State.accept_latch (i : Instr) : (s.accept i).latch = i.onto s.latch := rfl
@[simp] theorem State.accept_ctxs (i : Instr) : (s.accept i).ctxs = s.ctxs := rfl
@[simp] theorem State.accept_segbuf (i : Instr) : (s.accept i).segbuf = s.segbuf := rfl
@[simp] theorem State.accept_trace (i : Instr) : (s.accept i).trace = s.trace := rfl
@[simp] theorem State.accept_host (i : Instr) : (s.accept i).host = s.host := rfl

/-! ### `State.take` -/
@[simp] theorem State.take_cs (r : Request) (rest : List Request) : (s.take r rest).cs = s.cs := rfl
@[simp] theorem State.take_clk (r : Request) (rest : List Request) : (s.take r rest).clk = s.clk := rfl
@[simp] theorem State.take_data (r : Request) (rest : List Request) : (s.take r rest).data = s.data := rfl
@[simp] theorem State.take_rst (r : Request) (rest : List Request) : (s.take r rest).rst = s.rst := rfl
@[simp] theorem State.take_seq (r : Request) (rest : List Request) : (s.take r rest).seq = s.seq := rfl
@[simp] theorem State.take_txq (r : Request) (rest : List Request) : (s.take r rest).txq = s.txq := rfl
@[simp] theorem State.take_busy (r : Request) (rest : List Request) : (s.take r rest).busy = s.busy := rfl
@[simp] theorem State.take_fault (r : Request) (rest : List Request) : (s.take r rest).fault = s.fault := rfl
@[simp] theorem State.take_errcode (r : Request) (rest : List Request) : (s.take r rest).errcode = s.errcode := rfl
@[simp] theorem State.take_resp (r : Request) (rest : List Request) : (s.take r rest).resp = s.resp := rfl
@[simp] theorem State.take_latch (r : Request) (rest : List Request) : (s.take r rest).latch = r := rfl
@[simp] theorem State.take_ctxs (r : Request) (rest : List Request) : (s.take r rest).ctxs = s.ctxs := rfl
@[simp] theorem State.take_segbuf (r : Request) (rest : List Request) : (s.take r rest).segbuf = s.segbuf := rfl
@[simp] theorem State.take_trace (r : Request) (rest : List Request) : (s.take r rest).trace = s.trace := rfl
@[simp] theorem State.take_host (r : Request) (rest : List Request) : (s.take r rest).host = rest := rfl

/-! ### `State.memWrite` -/
@[simp] theorem State.memWrite_cs (a : BufAddr) (v : Byte) : (s.memWrite a v).cs = s.cs := rfl
@[simp] theorem State.memWrite_clk (a : BufAddr) (v : Byte) : (s.memWrite a v).clk = s.clk := rfl
@[simp] theorem State.memWrite_data (a : BufAddr) (v : Byte) : (s.memWrite a v).data = s.data := rfl
@[simp] theorem State.memWrite_rst (a : BufAddr) (v : Byte) : (s.memWrite a v).rst = s.rst := rfl
@[simp] theorem State.memWrite_seq (a : BufAddr) (v : Byte) : (s.memWrite a v).seq = s.seq := rfl
@[simp] theorem State.memWrite_txq (a : BufAddr) (v : Byte) : (s.memWrite a v).txq = s.txq := rfl
@[simp] theorem State.memWrite_busy (a : BufAddr) (v : Byte) : (s.memWrite a v).busy = s.busy := rfl
@[simp] theorem State.memWrite_fault (a : BufAddr) (v : Byte) : (s.memWrite a v).fault = s.fault := rfl
@[simp] theorem State.memWrite_errcode (a : BufAddr) (v : Byte) : (s.memWrite a v).errcode = s.errcode := rfl
@[simp] theorem State.memWrite_resp (a : BufAddr) (v : Byte) : (s.memWrite a v).resp = s.resp := rfl
@[simp] theorem State.memWrite_latch (a : BufAddr) (v : Byte) : (s.memWrite a v).latch = s.latch := rfl
@[simp] theorem State.memWrite_ctxs (a : BufAddr) (v : Byte) : (s.memWrite a v).ctxs = s.ctxs := rfl
@[simp] theorem State.memWrite_segbuf (a : BufAddr) (v : Byte) : (s.memWrite a v).segbuf = Memory.write s.segbuf a.key v := rfl
@[simp] theorem State.memWrite_trace (a : BufAddr) (v : Byte) : (s.memWrite a v).trace = s.trace := rfl
@[simp] theorem State.memWrite_host (a : BufAddr) (v : Byte) : (s.memWrite a v).host = s.host := rfl

/-! ### `State.setLine` and `State.drive` -/
@[simp] theorem State.setLine_seq (l : Line) (v : Bool) : (s.setLine l v).seq = s.seq := by cases l <;> rfl
@[simp] theorem State.drive_seq (l : Line) (v : Bool) : (s.drive l v).seq = s.seq := by cases l <;> rfl
@[simp] theorem State.setLine_txq (l : Line) (v : Bool) : (s.setLine l v).txq = s.txq := by cases l <;> rfl
@[simp] theorem State.drive_txq (l : Line) (v : Bool) : (s.drive l v).txq = s.txq := by cases l <;> rfl
@[simp] theorem State.setLine_busy (l : Line) (v : Bool) : (s.setLine l v).busy = s.busy := by cases l <;> rfl
@[simp] theorem State.drive_busy (l : Line) (v : Bool) : (s.drive l v).busy = s.busy := by cases l <;> rfl
@[simp] theorem State.setLine_fault (l : Line) (v : Bool) : (s.setLine l v).fault = s.fault := by cases l <;> rfl
@[simp] theorem State.drive_fault (l : Line) (v : Bool) : (s.drive l v).fault = s.fault := by cases l <;> rfl
@[simp] theorem State.setLine_errcode (l : Line) (v : Bool) : (s.setLine l v).errcode = s.errcode := by cases l <;> rfl
@[simp] theorem State.drive_errcode (l : Line) (v : Bool) : (s.drive l v).errcode = s.errcode := by cases l <;> rfl
@[simp] theorem State.setLine_resp (l : Line) (v : Bool) : (s.setLine l v).resp = s.resp := by cases l <;> rfl
@[simp] theorem State.drive_resp (l : Line) (v : Bool) : (s.drive l v).resp = s.resp := by cases l <;> rfl
@[simp] theorem State.setLine_latch (l : Line) (v : Bool) : (s.setLine l v).latch = s.latch := by cases l <;> rfl
@[simp] theorem State.drive_latch (l : Line) (v : Bool) : (s.drive l v).latch = s.latch := by cases l <;> rfl
@[simp] theorem State.setLine_ctxs (l : Line) (v : Bool) : (s.setLine l v).ctxs = s.ctxs := by cases l <;> rfl
@[simp] theorem State.drive_ctxs (l : Line) (v : Bool) : (s.drive l v).ctxs = s.ctxs := by cases l <;> rfl
@[simp] theorem State.setLine_segbuf (l : Line) (v : Bool) : (s.setLine l v).segbuf = s.segbuf := by cases l <;> rfl
@[simp] theorem State.drive_segbuf (l : Line) (v : Bool) : (s.drive l v).segbuf = s.segbuf := by cases l <;> rfl
@[simp] theorem State.setLine_trace (l : Line) (v : Bool) : (s.setLine l v).trace = s.trace := by cases l <;> rfl
@[simp] theorem State.drive_trace (l : Line) (v : Bool) : (s.drive l v).trace = s.trace ++ [.set l v] := by cases l <;> rfl
@[simp] theorem State.setLine_host (l : Line) (v : Bool) : (s.setLine l v).host = s.host := by cases l <;> rfl
@[simp] theorem State.drive_host (l : Line) (v : Bool) : (s.drive l v).host = s.host := by cases l <;> rfl
@[simp] theorem State.setLine_cs (l : Line) (v : Bool) : (s.setLine l v).cs = if l = .cs then v else s.cs := by cases l <;> rfl
@[simp] theorem State.drive_cs (l : Line) (v : Bool) : (s.drive l v).cs = if l = .cs then v else s.cs := by cases l <;> rfl
@[simp] theorem State.setLine_clk (l : Line) (v : Bool) : (s.setLine l v).clk = if l = .clk then v else s.clk := by cases l <;> rfl
@[simp] theorem State.drive_clk (l : Line) (v : Bool) : (s.drive l v).clk = if l = .clk then v else s.clk := by cases l <;> rfl
@[simp] theorem State.setLine_data (l : Line) (v : Bool) : (s.setLine l v).data = if l = .data then v else s.data := by cases l <;> rfl
@[simp] theorem State.drive_data (l : Line) (v : Bool) : (s.drive l v).data = if l = .data then v else s.data := by cases l <;> rfl
@[simp] theorem State.setLine_rst (l : Line) (v : Bool) :
    (s.setLine l v).rst = if l = .rst then s.rst.map (fun _ => v) else s.rst := by cases l <;> rfl
@[simp] theorem State.drive_rst (l : Line) (v : Bool) :
    (s.drive l v).rst = if l = .rst then s.rst.map (fun _ => v) else s.rst := by cases l <;> rfl

/-! ### `State.bind` -/
@[simp] theorem State.bind_cs (h : Fin Config.nseg) (c : Option Context) : (s.bind h c).cs = s.cs := by cases c <;> rfl
@[simp] theorem State.bind_clk (h : Fin Config.nseg) (c : Option Context) : (s.bind h c).clk = s.clk := by cases c <;> rfl
@[simp] theorem State.bind_data (h : Fin Config.nseg) (c : Option Context) : (s.bind h c).data = s.data := by cases c <;> rfl
@[simp] theorem State.bind_rst (h : Fin Config.nseg) (c : Option Context) : (s.bind h c).rst = s.rst := by cases c <;> rfl
@[simp] theorem State.bind_seq (h : Fin Config.nseg) (c : Option Context) : (s.bind h c).seq = s.seq := by cases c <;> rfl
@[simp] theorem State.bind_txq (h : Fin Config.nseg) (c : Option Context) : (s.bind h c).txq = s.txq := by cases c <;> rfl
@[simp] theorem State.bind_busy (h : Fin Config.nseg) (c : Option Context) : (s.bind h c).busy = s.busy := by cases c <;> rfl
@[simp] theorem State.bind_fault (h : Fin Config.nseg) (c : Option Context) : (s.bind h c).fault = s.fault := by cases c <;> rfl
@[simp] theorem State.bind_errcode (h : Fin Config.nseg) (c : Option Context) : (s.bind h c).errcode = s.errcode := by cases c <;> rfl
@[simp] theorem State.bind_resp (h : Fin Config.nseg) (c : Option Context) : (s.bind h c).resp = s.resp := by cases c <;> rfl
@[simp] theorem State.bind_latch (h : Fin Config.nseg) (c : Option Context) : (s.bind h c).latch = s.latch := by cases c <;> rfl
@[simp] theorem State.bind_segbuf (h : Fin Config.nseg) (c : Option Context) : (s.bind h c).segbuf = s.segbuf := by cases c <;> rfl
@[simp] theorem State.bind_trace (h : Fin Config.nseg) (c : Option Context) : (s.bind h c).trace = s.trace := by cases c <;> rfl
@[simp] theorem State.bind_host (h : Fin Config.nseg) (c : Option Context) : (s.bind h c).host = s.host := by cases c <;> rfl
@[simp] theorem State.bind_none (h : Fin Config.nseg) : s.bind h none = s := rfl
@[simp] theorem State.bind_some_ctxs (h : Fin Config.nseg) (c : Context) : (s.bind h (some c)).ctxs = s.ctxs.set h c := rfl

/-- The binding of a context after it is replaced (R31). -/
theorem State.context_bind (h h' : Fin Config.nseg) (c : Context) :
    (s.bind h (some c)).context h' = if h' = h then c else s.context h' := by
  unfold State.context
  rw [State.bind_some_ctxs]
  by_cases e : h' = h
  · subst e; simp
  · have : h.val ≠ h'.val := fun x => e (Fin.ext x.symm)
    simp [e, this]

/-- A context depends on the contexts alone. -/
theorem State.context_congr {s t : State} (e : t.ctxs = s.ctxs) (h : Fin Config.nseg) : t.context h = s.context h := by
  unfold State.context; rw [e]

/-- A buffer byte depends on the buffers alone. -/
theorem State.memRead_congr {s t : State} (e : t.segbuf = s.segbuf) (a : BufAddr) : t.memRead a = s.memRead a := by
  unfold State.memRead; rw [e]

end Sys2Proof.Machine
end

