-- ==== Sys2Proof/Laws/Memory.lean ====
section
/-! SUPPORT. The segment buffers: a read after a write, and the canonical form, which every memory operation keeps. -/

namespace Sys2Proof.Machine

/-- Two addresses with one key are one address: the key numbers SEGBUF without overlap. -/
theorem BufAddr.key_inj {a b : BufAddr} (e : a.key = b.key) : a = b := by
  obtain ⟨h, k⟩ := a
  obtain ⟨h', k'⟩ := b
  have hk : k.val < 7 := k.isLt
  have hk' : k'.val < 7 := k'.isLt
  simp only [BufAddr.key, Config.bufLen] at e
  have h1 : h = h' := Fin.ext (by omega)
  have h2 : k = k' := Fin.ext (by omega)
  rw [h1, h2]

/-- Every key lies in the 112 bytes of SEGBUF (R51). -/
theorem BufAddr.key_lt (a : BufAddr) : a.key < Config.nseg * Config.bufLen := by
  obtain ⟨h, k⟩ := a
  have hk : k.val < 7 := k.isLt
  have hh : h.val < 16 := h.isLt
  simp only [BufAddr.key, Config.bufLen, Config.nseg]
  omega

theorem Memory.read_insert (m : Memory) (a b : Nat) (v : Byte) :
    Memory.read (Memory.insert m a v) b = if a = b then v else Memory.read m b := by
  induction m with
  | nil => simp [Memory.insert, Memory.read]
  | cons c rest ih =>
    unfold Memory.insert
    by_cases h1 : a < c.1
    · simp [h1, Memory.read]
    · by_cases h2 : a = c.1
      · subst h2
        by_cases e : c.1 = b <;> simp [Memory.read, e]
      · simp only [h1, h2, if_false, Memory.read, ih]
        by_cases e : c.1 = b
        · have : a ≠ b := fun x => h2 (x.trans e.symm)
          simp [e, this]
        · simp [e]

theorem Memory.read_erase (m : Memory) (a b : Nat) :
    Memory.read (m.filter fun c => decide (c.1 ≠ a)) b = if a = b then Memory.unlisted else Memory.read m b := by
  induction m with
  | nil => simp [Memory.read]
  | cons c rest ih =>
    by_cases h : c.1 = a
    · rw [List.filter_cons_of_neg (by simp [h]), ih]
      by_cases e : a = b
      · simp [e]
      · have : c.1 ≠ b := fun x => e (h.symm.trans x)
        simp [e, Memory.read, this]
    · rw [List.filter_cons_of_pos (by simp [h])]
      simp only [Memory.read, ih]
      by_cases e : c.1 = b
      · have : a ≠ b := fun x => h (e.trans x.symm)
        simp [e, this]
      · simp [e]

/-- A read after a write: the value written at the key, every other key as before. -/
theorem Memory.read_write (m : Memory) (a b : Nat) (v : Byte) :
    Memory.read (Memory.write m a v) b = if a = b then v else Memory.read m b := by
  unfold Memory.write
  by_cases h : v = Memory.unlisted
  · rw [if_pos h, Memory.read_erase, h]
  · rw [if_neg h, Memory.read_insert]

/-- A lower bound of the keys may be lowered. -/
theorem Memory.wfFrom_mono {lo lo' : Nat} (h : lo' ≤ lo) {m : Memory} (w : Memory.wfFrom lo m = true) :
    Memory.wfFrom lo' m = true := by
  cases m with
  | nil => rfl
  | cons c rest =>
    simp only [Memory.wfFrom, Bool.and_eq_true, decide_eq_true_eq] at w ⊢
    exact ⟨⟨h.trans w.1.1, w.1.2⟩, w.2⟩

theorem Memory.wfFrom_insert {lo a : Nat} {v : Byte} {m : Memory} (hv : v ≠ Memory.unlisted) (ha : lo ≤ a)
    (w : Memory.wfFrom lo m = true) : Memory.wfFrom lo (Memory.insert m a v) = true := by
  induction m generalizing lo with
  | nil => simp [Memory.insert, Memory.wfFrom, hv, ha]
  | cons c rest ih =>
    simp only [Memory.wfFrom, Bool.and_eq_true, decide_eq_true_eq] at w
    unfold Memory.insert
    by_cases h1 : a < c.1
    · simp only [h1, if_true, Memory.wfFrom, Bool.and_eq_true, decide_eq_true_eq]
      exact ⟨⟨ha, hv⟩, ⟨h1, w.1.2⟩, w.2⟩
    · by_cases h2 : a = c.1
      · simp only [h2, if_false, if_true, Memory.wfFrom, Bool.and_eq_true, decide_eq_true_eq, lt_irrefl]
        exact ⟨⟨w.1.1, hv⟩, w.2⟩
      · simp only [h1, h2, if_false, Memory.wfFrom, Bool.and_eq_true, decide_eq_true_eq]
        exact ⟨w.1, ih (by omega) w.2⟩

theorem Memory.wfFrom_erase {lo a : Nat} {m : Memory} (w : Memory.wfFrom lo m = true) :
    Memory.wfFrom lo (m.filter fun c => decide (c.1 ≠ a)) = true := by
  induction m generalizing lo with
  | nil => rfl
  | cons c rest ih =>
    simp only [Memory.wfFrom, Bool.and_eq_true, decide_eq_true_eq] at w
    by_cases h : c.1 = a
    · rw [List.filter_cons_of_neg (by simp [h])]
      exact Memory.wfFrom_mono (by omega) (ih w.2)
    · rw [List.filter_cons_of_pos (by simp [h])]
      simp only [Memory.wfFrom, Bool.and_eq_true, decide_eq_true_eq]
      exact ⟨w.1, ih w.2⟩

/-- Every write keeps the canonical form. -/
theorem Memory.wf_write {m : Memory} {a : Nat} {v : Byte} (w : Memory.wf m = true) : Memory.wf (Memory.write m a v) = true := by
  unfold Memory.write
  by_cases h : v = Memory.unlisted
  · rw [if_pos h]; exact Memory.wfFrom_erase w
  · rw [if_neg h]; exact Memory.wfFrom_insert h (Nat.zero_le a) w

/-- The buffers after reset are in canonical form. -/
theorem reset_segbuf_wf : Memory.wf State.reset.segbuf = true := rfl

/-- A write lists no key but its own. -/
theorem Memory.mem_write {m : Memory} {a : Nat} {v : Byte} {c : Host.Cell} (h : c ∈ Memory.write m a v) :
    c.1 = a ∨ c ∈ m := by
  unfold Memory.write at h
  by_cases e : v = Memory.unlisted
  · rw [if_pos e] at h
    exact .inr (List.mem_filter.mp h).1
  · rw [if_neg e] at h
    induction m with
    | nil => simp only [Memory.insert, List.mem_singleton] at h; exact .inl (by rw [h])
    | cons d rest ih =>
      unfold Memory.insert at h
      split at h
      · rcases List.mem_cons.mp h with rfl | h
        · exact .inl rfl
        · exact .inr h
      · split at h
        · rcases List.mem_cons.mp h with rfl | h
          · exact .inl rfl
          · exact .inr (List.mem_cons_of_mem _ h)
        · rcases List.mem_cons.mp h with rfl | h
          · exact .inr List.mem_cons_self
          · rcases ih h with h | h
            · exact .inl h
            · exact .inr (List.mem_cons_of_mem _ h)

/-- `MemWrite` says what each byte of SEGBUF reads as afterwards (R51). -/
theorem State.memRead_memWrite (s : State) (a b : BufAddr) (v : Byte) :
    (s.memWrite a v).memRead b = if a = b then v else s.memRead b := by
  unfold State.memRead
  rw [State.memWrite_segbuf, Memory.read_write]
  by_cases e : a = b
  · simp [e]
  · have : a.key ≠ b.key := fun x => e (BufAddr.key_inj x)
    simp [e, this]

/-- A run of buffer writes changes SEGBUF alone, inside the one context. -/
theorem State.writeBuf_eq (s : State) (h : Fin Config.nseg) (ws : List (Fin Config.bufLen × Byte)) :
    s.writeBuf h ws = { s with segbuf := (s.writeBuf h ws).segbuf } := by
  induction ws generalizing s with
  | nil => rfl
  | cons w ws ih =>
    have := ih (s.memWrite ⟨h, w.1⟩ w.2)
    simp only [State.writeBuf, List.foldl_cons] at this ⊢
    rw [this]
    rfl

/-- Another context's buffer is untouched by a run of buffer writes. -/
theorem State.memRead_writeBuf_other (s : State) {h : Fin Config.nseg} (ws : List (Fin Config.bufLen × Byte)) {a : BufAddr}
    (ne : a.h ≠ h) : (s.writeBuf h ws).memRead a = s.memRead a := by
  induction ws generalizing s with
  | nil => rfl
  | cons w ws ih =>
    have e : (⟨h, w.1⟩ : BufAddr) ≠ a := fun x => ne (by rw [← x])
    have := ih (s.memWrite ⟨h, w.1⟩ w.2)
    simp only [State.writeBuf, List.foldl_cons] at this ⊢
    rw [this, State.memRead_memWrite, if_neg e]

/-- A run of buffer writes keeps the canonical form. -/
theorem State.writeBuf_wf (s : State) (h : Fin Config.nseg) (ws : List (Fin Config.bufLen × Byte))
    (w : Memory.wf s.segbuf = true) : Memory.wf (s.writeBuf h ws).segbuf = true := by
  induction ws generalizing s with
  | nil => exact w
  | cons x ws ih => exact ih (s.memWrite ⟨h, x.1⟩ x.2) (Memory.wf_write w)

/-- A run of buffer writes stays inside SEGBUF. -/
theorem State.writeBuf_keys (s : State) (h : Fin Config.nseg) (ws : List (Fin Config.bufLen × Byte))
    (w : ∀ c ∈ s.segbuf, c.1 < Config.nseg * Config.bufLen) :
    ∀ c ∈ (s.writeBuf h ws).segbuf, c.1 < Config.nseg * Config.bufLen := by
  induction ws generalizing s with
  | nil => exact w
  | cons x ws ih =>
    refine ih (s.memWrite ⟨h, x.1⟩ x.2) fun c hc => ?_
    rcases Memory.mem_write hc with e | hc
    · rw [e]; exact BufAddr.key_lt _
    · exact w c hc

end Sys2Proof.Machine
end

