-- ==== Sys2Proof/Laws/Wire.lean ====
section
/-! SUPPORT. What performing a sequence of events does to a state, once; the levels a frame and a reset pulse leave. -/

namespace Sys2Proof.Machine

/-- Levels after two sequences of events, one after the other. -/
theorem levelAfter_append (l : Line) (v : Bool) (xs ys : List Event) :
    levelAfter l v (xs ++ ys) = levelAfter l (levelAfter l v xs) ys := by
  induction xs generalizing v with
  | nil => rfl
  | cons e xs ih => cases e <;> simp [levelAfter, ih]

/-- Everything that performing events does: the four latches take the last level driven on their lines, the trace grows by
the events, nothing else changes. -/
theorem State.emit_eq (s : State) (evs : List Event) :
    s.emit evs =
      { s with
        cs := levelAfter .cs s.cs evs
        clk := levelAfter .clk s.clk evs
        data := levelAfter .data s.data evs
        rst := s.rst.map fun v => levelAfter .rst v evs
        trace := s.trace ++ evs } := by
  induction evs generalizing s with
  | nil => cases s; simp [State.emit, levelAfter]
  | cons e evs ih =>
    have step : s.emit (e :: evs) = (s.perform e).emit evs := rfl
    rw [step, ih]
    cases e with
    | wait t => simp [State.perform, State.hold, State.record, levelAfter]
    | set l v =>
      cases l <;> simp [State.perform, State.drive, State.setLine, State.record, levelAfter, Function.comp_def]

/-- The bytes of a frame drive neither CS nor RST. -/
theorem levelAfter_bytes_other (l : Line) (v : Bool) (bs : Bytes) (h1 : l ≠ .clk) (h2 : l ≠ .data) :
    levelAfter l v (bs.flatMap byteTrace) = v := by
  have h1' : Line.clk ≠ l := fun e => h1 e.symm
  have h2' : Line.data ≠ l := fun e => h2 e.symm
  induction bs generalizing v with
  | nil => rfl
  | cons b bs ih =>
    rw [List.flatMap_cons, levelAfter_append, ih]
    simp [byteTrace, bitsOf, bitCell, levelAfter, h1', h2']

/-- The bytes of a frame leave CLK at 1, if there is one (R113). -/
theorem levelAfter_bytes_clk (v : Bool) (bs : Bytes) :
    levelAfter .clk v (bs.flatMap byteTrace) = if bs = [] then v else true := by
  induction bs generalizing v with
  | nil => rfl
  | cons b bs ih =>
    rw [List.flatMap_cons, levelAfter_append, ih]
    simp [byteTrace, bitsOf, bitCell, levelAfter]

theorem levelAfter_bytes_data (v : Bool) (bs : Bytes) :
    levelAfter .data v (bs.flatMap byteTrace) = lastBit v bs := by
  induction bs generalizing v with
  | nil => rfl
  | cons b bs ih =>
    rw [List.flatMap_cons, levelAfter_append, ih]
    cases bs with
    | nil => simp [lastBit, byteTrace, bitsOf, bitCell, levelAfter]
    | cons c bs => simp [lastBit, List.getLast?_cons]

theorem levelAfter_sendTrace_cs (v : Bool) (bs : Bytes) : levelAfter .cs v (sendTrace bs) = true := by
  simp [sendTrace, levelAfter, levelAfter_append]

theorem levelAfter_sendTrace_clk (v : Bool) (bs : Bytes) :
    levelAfter .clk v (sendTrace bs) = if bs = [] then v else true := by
  simp [sendTrace, levelAfter, levelAfter_append, levelAfter_bytes_clk]

theorem levelAfter_sendTrace_data (v : Bool) (bs : Bytes) : levelAfter .data v (sendTrace bs) = lastBit v bs := by
  simp [sendTrace, levelAfter, levelAfter_append, levelAfter_bytes_data]

theorem levelAfter_sendTrace_rst (v : Bool) (bs : Bytes) : levelAfter .rst v (sendTrace bs) = v := by
  simp [sendTrace, levelAfter, levelAfter_append, levelAfter_bytes_other]

/-- Everything that `Send(bs)` does (R25, R110, R113). -/
theorem State.sendFrame_eq (s : State) (bs : Bytes) :
    s.sendFrame bs =
      { s with
        txq := bs
        cs := true
        clk := if bs = [] then s.clk else true
        data := lastBit s.data bs
        trace := s.trace ++ sendTrace bs } := by
  unfold State.sendFrame
  rw [State.emit_eq]
  simp [levelAfter_sendTrace_cs, levelAfter_sendTrace_clk, levelAfter_sendTrace_data, levelAfter_sendTrace_rst]

/-- Everything that the reset pulse does (R115). -/
theorem State.emit_pulse_eq (s : State) (a : Bool) :
    s.emit (pulseTrace a) =
      { s with cs := true, rst := s.rst.map fun _ => !a, trace := s.trace ++ pulseTrace a } := by
  rw [State.emit_eq]
  simp [pulseTrace, levelAfter]

end Sys2Proof.Machine
end

