-- ==== Sys2Proof/Laws/Ops.lean ====
section
/-! SUPPORT. What the shared operations over requests can do, once. -/

namespace Sys2Proof.Machine

/-- Taking the exception, in full (R205). -/
theorem State.raise_eq (s : State) (c : ErrCode) :
    s.raise c =
      { s with fault := true, errcode := errBits c, resp := some (.invalid c), busy := false, seq := .idle } := rfl

/-- A request to a busy block has no effect (R85, R241). -/
theorem request_busy {i : Instr} {p : Plan} {s : State} (h : s.busy = true) : request i p s = .next s := by
  simp [request, h]

/-- A request to an idle block is accepted and carried out. -/
theorem request_idle {i : Instr} {p : Plan} {s : State} (h : s.busy = false) :
    request i p s = .next ((s.accept i).carryOut p) := by
  simp [request, h]

/-- Presenting a request answers a next state, always. -/
theorem request_next (i : Instr) (p : Plan) (s : State) : ∃ t, request i p s = .next t := by
  cases h : s.busy
  · exact ⟨_, request_idle h⟩
  · exact ⟨_, request_busy h⟩

/-- The first failing check is the one reported (R207). -/
@[simp] theorem rejectIf_true (c : ErrCode) (p : Plan) : rejectIf true c p = .reject c := rfl

@[simp] theorem rejectIf_false (c : ErrCode) (p : Plan) : rejectIf false c p = p := rfl

theorem carryOut_reject (s : State) (c : ErrCode) : s.carryOut (.reject c) = s.raise c := rfl

theorem carryOut_frames (s : State) (fs : List Bytes) :
    s.carryOut (.frames fs) = (fs.foldl State.sendFrame s).respond .ok := rfl

theorem carryOut_pulse (s : State) : s.carryOut .pulse = (s.emit (pulseTrace Config.rstActive)).respond .ok := rfl

theorem carryOut_nothing (s : State) : s.carryOut .nothing = s.respond .ok := rfl

theorem carryOut_store (s : State) (h : Fin Config.nseg) (ws : List (Fin Config.bufLen × Byte)) (c : Option Context) :
    s.carryOut (.store h ws c) = ((s.writeBuf h ws).bind h c).respond .ok := rfl

/-- Every meaning presents its request with the plan `planOf` gives it. -/
theorem exec_eq_request (i : Instr) (s : State) : exec i s = request i (planOf i s) s := by
  cases i <;> rfl

/-- What `frequencyOrUnassigned` can answer: the frequency command on its two bytes, unassigned on every other. -/
theorem frequencyOrUnassigned_cases (b : Byte) :
    (b = freqByte 0 ∧ frequencyOrUnassigned b = .frequency 0) ∨
      (b ≠ freqByte 0 ∧ b = freqByte 1 ∧ frequencyOrUnassigned b = .frequency 1) ∨
      (b ≠ freqByte 0 ∧ b ≠ freqByte 1 ∧ frequencyOrUnassigned b = .unassigned) := by
  by_cases h0 : b = freqByte 0
  · exact .inl ⟨h0, if_pos h0⟩
  · by_cases h1 : b = freqByte 1
    · exact .inr (.inl ⟨h0, h1, by rw [frequencyOrUnassigned, if_neg h0, if_pos h1]⟩)
    · exact .inr (.inr ⟨h0, h1, by rw [frequencyOrUnassigned, if_neg h0, if_neg h1]⟩)

end Sys2Proof.Machine
end

