-- ==== Sys2Proof/Laws/PerInstr.lean ====
section
/-! SUPPORT. Families of statements made per request: one lemma per constructor of `Instr`. -/

namespace Sys2Proof.Laws

/-- The selector R86 assigns to a request. -/
def selector : Instr → Nat
  | .send _ => 0
  | .creset => 1
  | .blankNormal => 2
  | .blankAllOn => 2
  | .blankAllOff => 2
  | .dlen _ => 3
  | .dim _ => 4
  | .freq _ => 5
  | .curs _ _ => 6
  | .defch _ _ _ => 7
  | .segAttach _ _ _ => 8
  | .segSet _ _ _ => 9
  | .segUpdate _ => 10

/-- The request encoding carries the assigned selector (R86), whatever the operands and the port's other signals. -/
def SelectorCarried.Statement (i : Instr) : Prop := ∀ r : Request, (i.onto r).op.toNat = selector i

theorem SelectorCarried.send (bytes : List Nat) : SelectorCarried.Statement (.send bytes) := fun _ => rfl
theorem SelectorCarried.creset : SelectorCarried.Statement .creset := fun _ => rfl
theorem SelectorCarried.blankNormal : SelectorCarried.Statement .blankNormal := fun _ => rfl
theorem SelectorCarried.blankAllOn : SelectorCarried.Statement .blankAllOn := fun _ => rfl
theorem SelectorCarried.blankAllOff : SelectorCarried.Statement .blankAllOff := fun _ => rfl
theorem SelectorCarried.dlen (n : Nat) : SelectorCarried.Statement (.dlen n) := fun _ => rfl
theorem SelectorCarried.dim (v : Nat) : SelectorCarried.Statement (.dim v) := fun _ => rfl
theorem SelectorCarried.freq (f : Nat) : SelectorCarried.Statement (.freq f) := fun _ => rfl
theorem SelectorCarried.curs (p f : Nat) : SelectorCarried.Statement (.curs p f) := fun _ => rfl
theorem SelectorCarried.defch (slot nrows : Nat) (rows : Rows Nat) : SelectorCarried.Statement (.defch slot nrows rows) :=
  fun _ => rfl
theorem SelectorCarried.segAttach (h d slot : Nat) : SelectorCarried.Statement (.segAttach h d slot) := fun _ => rfl
theorem SelectorCarried.segSet (h i v : Nat) : SelectorCarried.Statement (.segSet h i v) := fun _ => rfl
theorem SelectorCarried.segUpdate (h : Nat) : SelectorCarried.Statement (.segUpdate h) := fun _ => rfl

end Sys2Proof.Laws
end

