-- ==== Sys2Proof/Laws/Plans.lean ====
section
/-! SUPPORT. Which plans the requests of the Segment Mapper turn out to be, and what a store leaves. -/

namespace Sys2Proof.Machine

/-- What the buffers are after a run of writes depends on what they were. -/
theorem State.writeBuf_congr (h : Fin Config.nseg) (ws : List (Fin Config.bufLen × Byte)) {s t : State}
    (e : s.segbuf = t.segbuf) : (s.writeBuf h ws).segbuf = (t.writeBuf h ws).segbuf := by
  induction ws generalizing s t with
  | nil => exact e
  | cons w ws ih => exact ih (by simp [e])

/-- Everything that an accepted store does. -/
theorem carryOut_accept_store (i : Instr) (s : State) (h : Fin Config.nseg) (ws : List (Fin Config.bufLen × Byte))
    (c : Option Context) :
    (s.accept i).carryOut (.store h ws c) =
      { s with
        latch := i.onto s.latch
        ctxs := (s.bind h c).ctxs
        segbuf := (s.writeBuf h ws).segbuf
        resp := some .ok
        busy := false
        seq := .idle } := by
  have e : ((s.accept i).writeBuf h ws).segbuf = (s.writeBuf h ws).segbuf := State.writeBuf_congr h ws rfl
  rw [carryOut_store, State.writeBuf_eq, e]
  cases c <;> rfl

/-- The buffer bytes after an attach (R175). -/
theorem State.memRead_attach (s : State) (h : Fin Config.nseg) (slot : Nat) (a : BufAddr) :
    (s.writeBuf h (attachWrites slot)).memRead a =
      if a.h = h then (if a.k.val = 0 then Config.opRamwr else if a.k.val = 1 then slotOffset slot else 0x00#8)
      else s.memRead a := by
  obtain ⟨ah, ak⟩ := a
  by_cases e : ah = h
  · subst e
    simp only [State.writeBuf, attachWrites, List.foldl_cons, List.foldl_nil, State.memRead_memWrite, if_true,
      BufAddr.mk.injEq, true_and]
    have cases7 : ∀ k : Fin 7, k = 0 ∨ k = 1 ∨ k = 2 ∨ k = 3 ∨ k = 4 ∨ k = 5 ∨ k = 6 := by decide
    rcases cases7 ak with rfl | rfl | rfl | rfl | rfl | rfl | rfl <;> rfl
  · rw [State.memRead_writeBuf_other _ _ e]; simp [e]

/-- `SEG.ATTACH` is rejected, or stores the header, the blank columns and the binding (R175). -/
theorem planSegAttach_cases (h d slot : Nat) :
    (∃ c, planSegAttach h d slot = .reject c) ∨
      ∃ hc : h < Config.nseg, d ≤ 16 ∧ 144 ≤ slot ∧ slot ≤ 159 ∧
        planSegAttach h d slot =
          .store ⟨h, hc⟩ (attachWrites slot) (some ⟨true, BitVec.ofNat 5 d, BitVec.ofNat 8 slot⟩) := by
  unfold planSegAttach
  split
  · rename_i hc
    unfold rejectIf
    split
    · exact .inl ⟨_, rfl⟩
    · split
      · exact .inl ⟨_, rfl⟩
      · rename_i a b
        simp [badDigit, badSlot] at a b
        exact .inr ⟨hc, a, b.1, b.2, rfl⟩
  · exact .inl ⟨_, rfl⟩

/-- `SEG.SET` is rejected, or stores one byte of its context (R180). -/
theorem planSegSet_cases (h i v : Nat) (s : State) :
    (∃ c, planSegSet h i v s = .reject c) ∨
      ∃ hc : h < Config.nseg, (s.context ⟨h, hc⟩).valid = true ∧ i ≤ 34 ∧ v ≤ 1 ∧
        planSegSet h i v s =
          .store ⟨h, hc⟩ [(segByte i, segUpdateByte (s.memRead ⟨⟨h, hc⟩, segByte i⟩) i v)] none := by
  unfold planSegSet
  split
  · rename_i hc
    unfold rejectIf
    split
    · exact .inl ⟨_, rfl⟩
    · split
      · exact .inl ⟨_, rfl⟩
      · split
        · exact .inl ⟨_, rfl⟩
        · rename_i a b c
          simp [badSegment, badFlag] at a b c
          exact .inr ⟨hc, a, by omega, c, rfl⟩
  · exact .inl ⟨_, rfl⟩

/-- `SEG.UPDATE` is rejected, or sends the three frames of its context (R185). -/
theorem planSegUpdate_cases (h : Nat) (s : State) :
    (∃ c, planSegUpdate h s = .reject c) ∨
      ∃ hc : h < Config.nseg, (s.context ⟨h, hc⟩).valid = true ∧ planSegUpdate h s = .frames (s.updateFrames ⟨h, hc⟩) := by
  unfold planSegUpdate
  split
  · rename_i hc
    unfold rejectIf
    split
    · exact .inl ⟨_, rfl⟩
    · split
      · exact .inl ⟨_, rfl⟩
      · rename_i a b
        simp at a
        exact .inr ⟨hc, a, rfl⟩
  · exact .inl ⟨_, rfl⟩

end Sys2Proof.Machine
end

