-- ==== Sys2Proof/Laws/Sequencer.lean ====
section
/-! SUPPORT. The small step, once: what each arrow of R112 and R116 does, and what no arrow touches. -/

namespace Sys2Proof.Machine

variable {s t : State} {f k : Nat} {i : BitVec 3}

theorem microStep_csAssert (h : s.seq = .run ⟨f, k, i, .csAssert⟩) :
    microStep s =
      .next { s.drive .cs false with
        seq := .run (if s.txq = [] then ⟨f, k, i, .csRelease⟩ else ⟨f, 0, 7#3, .setup⟩) } := by
  simp [microStep, h]

theorem microStep_setup {b : Byte} (h : s.seq = .run ⟨f, k, i, .setup⟩) (hb : s.txq[k]? = some b) :
    microStep s =
      .next { (s.drive .clk false).drive .data (b.getLsbD i.toNat) with seq := .run ⟨f, k, i, .holdLow⟩ } := by
  simp [microStep, h, hb]

theorem microStep_holdLow (h : s.seq = .run ⟨f, k, i, .holdLow⟩) :
    microStep s = .next { s.hold .bit with seq := .run ⟨f, k, i, .rise⟩ } := by simp [microStep, h]

theorem microStep_rise (h : s.seq = .run ⟨f, k, i, .rise⟩) :
    microStep s = .next { s.drive .clk true with seq := .run ⟨f, k, i, .holdHigh⟩ } := by simp [microStep, h]

theorem microStep_holdHigh (h : s.seq = .run ⟨f, k, i, .holdHigh⟩) :
    microStep s =
      .next { s.hold .bit with seq := .run (SeqPos.advance ⟨f, k, i, .holdHigh⟩ s.txq.length) } := by
  simp [microStep, h]

/-- The release of the last frame ends the request. -/
theorem microStep_csRelease_last (h : s.seq = .run ⟨f, k, i, .csRelease⟩) (hn : s.nextFrame f = none) :
    microStep s = .next ((s.drive .cs true).respond .ok) := by simp [microStep, h, hn]

/-- The release of another frame loads the next one. -/
theorem microStep_csRelease_next {bs : Bytes} (h : s.seq = .run ⟨f, k, i, .csRelease⟩) (hn : s.nextFrame f = some bs) :
    microStep s = .next { s.drive .cs true with txq := bs, seq := .run ⟨f + 1, 0, 7#3, .csAssert⟩ } := by
  simp [microStep, h, hn]

theorem microStep_rCs (h : s.seq = .run ⟨f, k, i, .rCs⟩) :
    microStep s = .next { s.drive .cs true with seq := .run ⟨f, k, i, .rPre⟩ } := by simp [microStep, h]

theorem microStep_rPre (h : s.seq = .run ⟨f, k, i, .rPre⟩) :
    microStep s = .next { s.drive .rst (!Config.rstActive) with seq := .run ⟨f, k, i, .rPulse⟩ } := by
  simp [microStep, h]

theorem microStep_rPulse (h : s.seq = .run ⟨f, k, i, .rPulse⟩) :
    microStep s = .next { (s.drive .rst Config.rstActive).hold .rst with seq := .run ⟨f, k, i, .rRecover⟩ } := by
  simp [microStep, h]

theorem microStep_rRecover (h : s.seq = .run ⟨f, k, i, .rRecover⟩) :
    microStep s = .next (((s.drive .rst (!Config.rstActive)).hold .rst).respond .ok) := by simp [microStep, h]

/-- Performing events, in two parts. -/
theorem State.emit_append (s : State) (xs ys : List Event) : (s.emit xs).emit ys = s.emit (xs ++ ys) := by
  simp [State.emit, List.foldl_append]

/-- What performing events reads is not the sequencer. -/
theorem State.emit_seq (s : State) (evs : List Event) (q : Seq) :
    ({ s with seq := q } : State).emit evs = { s.emit evs with seq := q } := by
  rw [State.emit_eq, State.emit_eq]

/-- Another frame of an update exists only below the third (R121). -/
theorem State.nextFrame_lt {bs : Bytes} (h : s.nextFrame f = some bs) : f + 1 < 3 := by
  unfold State.nextFrame at h
  split at h
  · simpa [State.updateFrames] using (List.getElem?_eq_some_iff.mp h).1
  · cases h

end Sys2Proof.Machine
end

