-- ==== Sys2Proof/Tests/Slice0.lean ====
section
/-! SUPPORT. Checks on fixed values: the ill-formed terms that WellFormed refuses, words written out from the spec's encodings,
small steps with expected values from `95_test_vectors.md`, and for every statement with hypotheses a state and operands that
meet them all. -/

namespace Sys2Proof.Tests

open Sys2Proof Sys2Proof.Machine Sys2Proof.Safety

/-! ## WellFormed refuses what a port cannot carry -/

theorem test_wf_send : (Instr.send [0, 255]).wellFormed = true ∧ (Instr.send [0, 256]).wellFormed = false := by decide
theorem test_wf_dlen : (Instr.dlen 255).wellFormed = true ∧ (Instr.dlen 256).wellFormed = false := by decide
theorem test_wf_dim : (Instr.dim 255).wellFormed = true ∧ (Instr.dim 256).wellFormed = false := by decide
theorem test_wf_freq : (Instr.freq 255).wellFormed = true ∧ (Instr.freq 256).wellFormed = false := by decide
theorem test_wf_curs :
    (Instr.curs 255 255).wellFormed = true ∧ (Instr.curs 256 0).wellFormed = false ∧
      (Instr.curs 1 256).wellFormed = false := by decide
theorem test_wf_defch :
    (Instr.defch 255 15 (Rows.all 255)).wellFormed = true ∧ (Instr.defch 256 7 (Rows.all 0)).wellFormed = false ∧
      (Instr.defch 144 16 (Rows.all 0)).wellFormed = false ∧
      (Instr.defch 144 7 ⟨0, 0, 0, 0, 0, 0, 256⟩).wellFormed = false := by decide
theorem test_wf_segAttach :
    (Instr.segAttach 15 255 255).wellFormed = true ∧ (Instr.segAttach 16 0 144).wellFormed = false ∧
      (Instr.segAttach 0 256 144).wellFormed = false ∧ (Instr.segAttach 0 0 256).wellFormed = false := by decide
theorem test_wf_segSet :
    (Instr.segSet 15 255 255).wellFormed = true ∧ (Instr.segSet 16 0 0).wellFormed = false ∧
      (Instr.segSet 0 256 0).wellFormed = false ∧ (Instr.segSet 0 0 256).wellFormed = false := by decide
theorem test_wf_segUpdate :
    (Instr.segUpdate 15).wellFormed = true ∧ (Instr.segUpdate 16).wellFormed = false := by decide

/-! ## Requests written out signal by signal from R86 -/

/-- A port with seven signals given in the order of R85. -/
def port (op : Nat) (a b h : Nat) (rows : Rows Nat) (nrows : Nat) (bytes : List Nat) : Request :=
  ⟨BitVec.ofNat 4 op, BitVec.ofNat 8 a, BitVec.ofNat 8 b, BitVec.ofNat 4 h, rows.map (BitVec.ofNat 8), BitVec.ofNat 4 nrows,
    bytes.map (BitVec.ofNat 8)⟩

theorem test_decode_send : decode (port 0 9 9 9 (Rows.all 9) 9 [0xA5, 1]) = .ok (.send [0xA5, 1]) := by decide
theorem test_decode_creset : decode (port 1 9 9 9 (Rows.all 9) 9 [9]) = .ok .creset := by decide
theorem test_decode_blankNormal : decode (port 2 0 9 9 (Rows.all 9) 9 [9]) = .ok .blankNormal := by decide
theorem test_decode_blankAllOn : decode (port 2 1 9 9 (Rows.all 9) 9 [9]) = .ok .blankAllOn := by decide
theorem test_decode_blankAllOff : decode (port 2 2 9 9 (Rows.all 9) 9 [9]) = .ok .blankAllOff := by decide
theorem test_decode_blank_3 : decode (port 2 3 9 9 (Rows.all 9) 9 [9]) = .error .mode := by decide
theorem test_decode_dlen : decode (port 3 16 9 9 (Rows.all 9) 9 [9]) = .ok (.dlen 16) := by decide
theorem test_decode_dim : decode (port 4 5 9 9 (Rows.all 9) 9 [9]) = .ok (.dim 5) := by decide
theorem test_decode_freq : decode (port 5 1 9 9 (Rows.all 9) 9 [9]) = .ok (.freq 1) := by decide
theorem test_decode_curs : decode (port 6 16 1 9 (Rows.all 9) 9 [9]) = .ok (.curs 16 1) := by decide
theorem test_decode_defch :
    decode (port 7 144 9 9 ⟨0, 10, 21, 17, 10, 4, 0⟩ 7 [9]) = .ok (.defch 144 7 ⟨0, 10, 21, 17, 10, 4, 0⟩) := by decide
theorem test_decode_segAttach : decode (port 8 3 145 15 (Rows.all 9) 9 [9]) = .ok (.segAttach 15 3 145) := by decide
theorem test_decode_segSet : decode (port 9 17 1 2 (Rows.all 9) 9 [9]) = .ok (.segSet 2 17 1) := by decide
theorem test_decode_segUpdate : decode (port 10 9 9 15 (Rows.all 9) 9 [9]) = .ok (.segUpdate 15) := by decide
theorem test_decode_reserved :
    decode (port 11 0 0 0 (Rows.all 0) 0 []) = .error .op ∧ decode (port 15 0 0 0 (Rows.all 0) 0 []) = .error .op := by decide

/-! ## Frames written out from R81 to R83, R87 to R91 and `95_test_vectors.md` -/

theorem test_frame_dlen : decodeFrame [0b00000111#8] = .dlen 16 ∧ decodeFrame [0b00000000#8] = .dlen 9 := ⟨rfl, rfl⟩
theorem test_frame_dim : decodeFrame [0b00001101#8] = .dim 5 ∧ decodeFrame [0b00001111#8] = .dim 7 := ⟨rfl, rfl⟩
theorem test_frame_curs :
    decodeFrame [0b11100010#8, 0b11110100#8] = .curs 3 0 ∧ decodeFrame [0b11101111#8, 0b11110101#8] = .curs 16 1 :=
  ⟨rfl, rfl⟩
theorem test_frame_defch :
    decodeFrame [0xFC#8, 0x00#8, 0x30#8, 0x48#8, 0x24#8, 0x48#8, 0x30#8] = .defch 144 7 ⟨0, 10, 21, 17, 10, 4, 0⟩ := by decide
/-- A cursor byte alone, a RAM write with a set bit 0 or an empty frame is no command's frame. -/
theorem test_frame_send :
    decodeFrame [0xFC#8, 0x00#8, 0x31#8, 0#8, 0#8, 0#8, 0#8] = .send [0xFC, 0, 0x31, 0, 0, 0, 0] ∧
      decodeFrame [0xE0#8, 0x20#8] = .send [0xE0, 0x20] ∧ decodeFrame [] = .send [] := by decide

/-- Words of the table (R99): byte 0 in bits 7..0. -/
theorem test_table_words :
    decodeTableWord 8 0x07 = some (.dlen 16) ∧ decodeTableWord 8 0x0D = some (.dim 5) ∧
      decodeTableWord 16 0xF5E0 = some (.curs 1 1) ∧
      decodeTableWord 56 0x304824483000FC = some (.defch 144 7 ⟨0, 10, 21, 17, 10, 4, 0⟩) ∧ decodeTableWord 0 0 = none :=
  ⟨rfl, rfl, rfl, by decide, rfl⟩

/-! ## One step on a small state -/

/-- The state an outcome gives. -/
def after (o : Outcome) : State :=
  match o with
  | .next t => t
  | .fault _ => State.reset
  | .refused _ => State.reset

/-- Reset with one request on the port. -/
def presented (i : Instr) : State := { State.reset with host := [encode i] }

/-- Reset with context 0 bound to digit 3 and slot 145, its buffer blank, and context 15 bound to digit 0 and slot 159. -/
def attached : State :=
  { State.reset with
    ctxs := (State.reset.ctxs.set 0 ⟨true, 3#5, 145#8⟩).set 15 ⟨true, 0#5, 159#8⟩
    segbuf := [(0, 0xFC#8), (1, 0x01#8), (105, 0xFC#8), (106, 0x0F#8)] }

/-- 40_transport.md, `95_test_vectors.md` L2.1: `SEND []` is one empty frame, whatever `SEND_MAX` is. -/
theorem test_send_empty : (after (exec (.send []) State.reset)).trace = [.set .cs false, .set .cs true] := by
  have h : ∀ m, Config.overLimit m 0 = false := fun m => by cases m <;> rfl
  simp [exec, execSend, planSend, badBytes, h, request, State.reset]
  rfl

/-- L2.1: `SEND [0x100]` is rejected with `E_BYTE`, without an event. -/
theorem test_send_wide :
    (after (exec (.send [0x100]) State.reset)).trace = [] ∧
      (after (exec (.send [0x100]) State.reset)).resp = some (.invalid .byte) := ⟨rfl, rfl⟩

/-- L2.1: the reset pulse for `RST_ACTIVE` 0. -/
theorem test_pulse :
    pulseTrace false =
      [.set .cs true, .set .rst true, .set .rst false, .wait .rst, .set .rst true, .wait .rst] := by decide

/-- L2.1: `CRESET` answers `OK` in either configuration. -/
theorem test_creset : (after (exec .creset State.reset)).resp = some .ok := by
  show (State.carryOut planCreset _).resp = some .ok
  unfold planCreset
  cases Config.hasRst <;> rfl

/-- L2.2: each blanking request sends its own constant. -/
theorem test_blankNormal : (after (exec .blankNormal State.reset)).trace = sendTrace [Config.blankNormal] := rfl
theorem test_blankAllOn : (after (exec .blankAllOn State.reset)).txq = [Config.blankAllOn] := rfl
theorem test_blankAllOff : (after (exec .blankAllOff State.reset)).txq = [Config.blankAllOff] := rfl

/-- L2.2: `DLEN 16` sends `[0x07]`, `DLEN 17` is rejected. -/
theorem test_dlen : framesOf (after (exec (.dlen 16) State.reset)).trace = [some [0x07#8]] := by decide
theorem test_dlen_17 : (after (exec (.dlen 17) State.reset)).errcode = 4#5 ∧ (after (exec (.dlen 17) State.reset)).trace = [] := by
  decide

/-- L2.1: the 42 events of the frame of `DIM 5`. -/
theorem test_dim_trace :
    (after (exec (.dim 5) State.reset)).txq = [0x0D#8] ∧ sendTrace [0x0D#8] =
      .set .cs false ::
        [false, false, false, false, true, true, false, true].flatMap (fun b =>
          [.set .clk false, .set .data b, .wait .bit, .set .clk true, .wait .bit]) ++ [.set .cs true] :=
  ⟨rfl, by simp [sendTrace, byteTrace, bitsOf, bitCell]⟩
theorem test_dim_8 : (after (exec (.dim 8) State.reset)).resp = some (.invalid .dim) := rfl

theorem test_freq : (after (exec (.freq 1) State.reset)).txq = [Config.opFreq ||| 1#8] := rfl
/-- R92's rows at their ends, for the values whose class no open opcode can change. -/
theorem test_classify_rows :
    [0x00#8, 0x07#8, 0x08#8, 0x0F#8, 0x20#8, 0x7F#8, 0x90#8, 0x9F#8, 0xA0#8, 0xDF#8, 0xE0#8, 0xEF#8, 0xF4#8, 0xF5#8,
        0xFC#8].map classify =
      [.digitLength 9, .digitLength 16, .dimmer 0, .dimmer 7, .display, .display, .slotCode 0, .slotCode 15, .display, .display,
        .cursor 1, .cursor 16, .autoInc false, .autoInc true, .ramWrite] := by decide
theorem test_freq_2 : (after (exec (.freq 2) State.reset)).resp = some (.invalid .freq) := rfl

/-- L2.2: `CURS 16, 0` sends `[0xEF, 0xF4]`; for `17, 2` the position is reported. -/
theorem test_curs : framesOf (after (exec (.curs 16 0) State.reset)).trace = [some [0xEF#8, 0xF4#8]] := by decide
theorem test_curs_first_check : (after (exec (.curs 17 2) State.reset)).resp = some (.invalid .pos) := rfl

/-- L1.1: the glyph of DOC0 at RAM1. -/
theorem test_defch :
    (after (exec (.defch 144 7 ⟨0, 10, 21, 17, 10, 4, 0⟩) State.reset)).txq =
      [0xFC#8, 0x00#8, 0x30#8, 0x48#8, 0x24#8, 0x48#8, 0x30#8] := by decide
theorem test_defch_row_32 :
    (after (exec (.defch 144 7 ⟨0, 0, 0, 0, 0, 0, 32⟩) State.reset)).resp = some (.invalid .rowval) := rfl

/-- R175's example. -/
theorem test_segAttach :
    (after (exec (.segAttach 0 3 145) State.reset)).bufBytes 0 = [0xFC#8, 0x01#8, 0#8, 0#8, 0#8, 0#8, 0#8] ∧
      (after (exec (.segAttach 0 3 145) State.reset)).context 0 = ⟨true, 3#5, 145#8⟩ := by decide
theorem test_segAttach_17 : (after (exec (.segAttach 0 17 145) State.reset)).resp = some (.invalid .digit) := rfl

/-- R180's example: segment 17 is byte 4, bit 4. -/
theorem test_segSet :
    (after (exec (.segSet 0 17 1) attached)).bufBytes 0 = [0xFC#8, 0x01#8, 0#8, 0#8, 0x10#8, 0#8, 0#8] := by decide
/-- L1.4: the bitwise clear of bit 5 in 0x30 (segment 12 is byte 4, bit 5). -/
theorem test_segSet_clear :
    (after (exec (.segSet 0 12 0) { attached with segbuf := [(0, 0xFC#8), (1, 0x01#8), (4, 0x30#8)] })).memRead ⟨0, 4⟩ =
      0x10#8 := by decide

/-- R185's example: three frames. -/
theorem test_segUpdate :
    ({ attached with segbuf := [(0, 0xFC#8), (1, 0x01#8), (4, 0x10#8)] } : State).updateFrames 0 =
      [[0xFC#8, 0x01#8, 0#8, 0#8, 0x10#8, 0#8, 0#8], [0xE2#8, 0xF4#8], [0x91#8]] ∧
      (after (exec (.segUpdate 0) attached)).txq = [0x91#8] := by decide
theorem test_segUpdate_digit_0 :
    (after (exec (.segUpdate 15) attached)).resp = some (.invalid .pos) ∧ (after (exec (.segUpdate 15) attached)).trace = [] := by
  decide

/-- A table word becomes the next request, and the next step runs it. -/
theorem test_withFetchWord :
    State.reset.withFetchWord 8 0x07 = presented (.dlen 16) ∧ framesOf (after (step (presented (.dlen 16)))).trace = [some [0x07#8]] :=
  ⟨rfl, by decide⟩

/-! ## A state and operands for the hypotheses of each statement

Statements without a hypothesis (`DecodeFailsExactlyOnReserved` and other equivalences, counts, values at reset) have none. The
hypothesis `s.busy = false` alone is met by the state after reset (`witness_idle`). -/

/-- Reset, with a one-byte frame begun: BUSY, about to assert chip-select. -/
def sending : State := { State.reset with busy := true, seq := .run ⟨0, 0, 7#3, .csAssert⟩, txq := [0x07#8] }

/-- Idle after one frame, with a request on the port. -/
def between : State :=
  { State.reset with clk := true, data := true, trace := sendTrace [0x07#8], host := [encode (.curs 1 1)] }

theorem witness_idle : State.reset.busy = false ∧ attached.busy = false := ⟨rfl, rfl⟩

/-- `RequestDecodeOfEncode`, with every port at its largest value. -/
theorem witness_wellFormed :
    (Instr.defch 255 15 (Rows.all 255)).wellFormed = true ∧ (Instr.segSet 15 255 255).wellFormed = true ∧
      (Instr.segAttach 15 255 255).wellFormed = true ∧ (Instr.send [0, 255]).wellFormed = true ∧
      (Instr.curs 255 0).wellFormed = true := by decide

/-- `RequestEncodeOfDecode`. -/
theorem witness_decoded : decode (port 9 255 255 15 (Rows.all 255) 15 [255]) = .ok (.segSet 15 255 255) := by decide

/-- `SelectorsChooseTheRequest`, one port for each clause. -/
theorem witness_selectors :
    (List.range 11).map (fun k => (port k 0 0 0 (Rows.all 0) 0 []).op) = (List.range 11).map (BitVec.ofNat 4) ∧
      (port 2 0 0 0 (Rows.all 0) 0 []).a = 0#8 ∧ (port 2 1 0 0 (Rows.all 0) 0 []).a = 1#8 ∧
      (port 2 2 0 0 (Rows.all 0) 0 []).a = 2#8 := by decide

/-- `FrameDecodeOfEncode`, `EncoderBytesStayInTheirRegions`, `OpenOpcodesAreAdmissible`, `TranscodePlacesEveryDot`: both ends of
each operand's range. -/
theorem witness_operand_ranges :
    (∀ n ∈ [9, 16], 9 ≤ n ∧ n ≤ 16) ∧ (∀ v ∈ [0, 7], v ≤ 7) ∧ (∀ f ∈ [0, 1], f ≤ 1) ∧ (∀ p ∈ [1, 16], 1 ≤ p ∧ p ≤ 16) ∧
      (∀ slot ∈ [144, 159], 144 ≤ slot ∧ slot ≤ 159) ∧ (∀ x ∈ (⟨0, 31, 0, 31, 0, 31, 0⟩ : Rows Nat).toList, x ≤ 31) ∧
      (∀ r ∈ [0, 6], (⟨0, 31, 0, 31, 0, 31, 0⟩ : Rows Nat).toList[r]? = some 0) ∧
      Config.blankAllOff ∈ [Config.blankNormal, Config.blankAllOn, Config.blankAllOff] := by
  refine ⟨by decide, by decide, by decide, by decide, by decide, by decide, by decide, by simp⟩

/-- `TransposeRoundTrip`, both directions, at the ends of the ranges. -/
theorem witness_transpose :
    (∀ slot ∈ [144, 159], 144 ≤ slot ∧ slot ≤ 159) ∧ (∀ x ∈ (⟨0, 31, 16, 1, 0, 31, 0⟩ : Rows Nat).toList, x ≤ 31) ∧
      ∀ c ∈ [0x00#8, 0xFE#8, 0x80#8, 0x02#8, 0x30#8], c.getLsbD 0 = false := by decide

/-- `TransportLaw`: the empty trace, and one that has sent a frame. -/
theorem witness_TransportLaw :
    levelAfter .cs true [] = true ∧ levelAfter .cs true (sendTrace [0xA5#8]) = true := by decide

/-- `WireEquivalentTracesHaveTheSameFrames`: two traces that differ in a redundant set. -/
theorem witness_WireEquivalent :
    WireEquivalent [.set .cs false, .set .cs true] [.set .clk false, .set .cs false, .wait .bit, .set .cs true] := rfl

/-- `BlankOnThePort`, its last accepted mode and its first rejected one. -/
theorem witness_BlankOnThePort :
    ∀ k ∈ [0, 1, 2, 3, 255],
      let r := port 2 k 0 0 (Rows.all 0) 0 []
      ({ State.reset with host := [r] } : State).busy = false ∧ ({ State.reset with host := [r] } : State).host = r :: [] ∧
        r.op = 2#4 := fun _ _ => ⟨rfl, rfl, rfl⟩

/-- `DigitLengthOnThePort`, the counts on both sides of each bound. -/
theorem witness_DigitLengthOnThePort :
    ∀ k ∈ [8, 9, 16, 17],
      let r := port 3 k 0 0 (Rows.all 0) 0 []
      ({ State.reset with host := [r] } : State).busy = false ∧ ({ State.reset with host := [r] } : State).host = r :: [] ∧
        r.op = 3#4 := fun _ _ => ⟨rfl, rfl, rfl⟩

/-- `CommandIsEncodeThenSend`: an accepted and a rejected cursor command are commands, on an idle block. -/
theorem witness_CommandIsEncodeThenSend :
    (∃ p f, Instr.curs 16 1 = .curs p f) ∧ (∃ p f, Instr.curs 17 1 = .curs p f) ∧ State.reset.busy = false :=
  ⟨⟨16, 1, rfl⟩, ⟨17, 1, rfl⟩, rfl⟩

/-- `AttachResult`: each clause, at the bound of its operand. -/
theorem witness_AttachResult :
    attached.busy = false ∧ 16 ≤ 16 ∧ 16 < 17 ∧ (16 ≤ 16 ∧ (143 < 144 ∨ 159 < 143)) ∧ (0 ≤ 16 ∧ (160 < 144 ∨ 159 < 160)) ∧
      (16 ≤ 16 ∧ 144 ≤ 144 ∧ 144 ≤ 159) ∧ (0 ≤ 16 ∧ 144 ≤ 159 ∧ 159 ≤ 159) := by decide

/-- `AttachBlanksEverySegment`: an attach that rebinds a bound context. -/
theorem witness_AttachBlanksEverySegment :
    attached.busy = false ∧ (16 ≤ 16 ∧ 144 ≤ 159 ∧ 159 ≤ 159) ∧
      ∃ t, exec (.segAttach (0 : Fin 16) 16 159) attached = .next t := ⟨rfl, by decide, _, rfl⟩

/-- `SetSegmentResult`: each clause, at the bound of its operand. -/
theorem witness_SetSegmentResult :
    attached.busy = false ∧ 16 ≤ 16 ∧ (attached.context 1).valid = false ∧ ((attached.context 15).valid = true ∧ 34 < 35) ∧
      ((attached.context 0).valid = true ∧ 34 ≤ 34 ∧ 1 < 2) ∧ ((attached.context 0).valid = true ∧ 34 ≤ 34 ∧ 1 ≤ 1) ∧
      ((attached.context 0).valid = true ∧ 0 ≤ 34 ∧ 0 ≤ 1) := by decide

/-- `SegmentsDoNotAlias`: two segments of one byte, and the premises at equal segments. -/
theorem witness_SegmentsDoNotAlias :
    0 ≤ 34 ∧ 34 ≤ 34 ∧ segByte 4 = segByte 34 ∧ segBit 4 ≠ segBit 34 ∧ segByte 34 = segByte 34 ∧ segBit 34 = segBit 34 := by
  decide

/-- `SetChangesOneSegment` and `SetInverseAndIdempotent`: the last segment of a blank buffer, set. -/
theorem witness_SetChangesOneSegment :
    attached.busy = false ∧ (attached.context 0).valid = true ∧ 34 ≤ 34 ∧ 1 ≤ 1 ∧ attached.seg 0 34 = false ∧
      ∃ t, exec (.segSet (0 : Fin 16) 34 1) attached = .next t := ⟨rfl, rfl, by decide, by decide, by decide, _, rfl⟩

/-- `SetsCommute`: two segments of one byte of one context, and the same segment of two contexts. -/
theorem witness_SetsCommute :
    attached.busy = false ∧ (attached.context 0).valid = true ∧ (attached.context 15).valid = true ∧
      ((0 : Fin 16), 4) ≠ ((0 : Fin 16), 34) ∧ ((0 : Fin 16), 34) ≠ ((15 : Fin 16), 34) ∧
      (∃ t, exec (.segSet (0 : Fin 16) 34 1) attached = .next t) ∧
      (∃ u, exec (.segSet (0 : Fin 16) 4 0) attached = .next u) ∧
      ∃ u, exec (.segSet (15 : Fin 16) 34 1) attached = .next u :=
  ⟨rfl, rfl, rfl, by decide, by decide, ⟨_, rfl⟩, ⟨_, rfl⟩, _, rfl⟩

/-- `SetIsSilentOnTheWire`: an accepted and a rejected request. -/
theorem witness_SetIsSilentOnTheWire :
    (∃ t, exec (.segSet 0 34 1) attached = .next t) ∧ ∃ t, exec (.segSet 0 35 1) attached = .next t := ⟨⟨_, rfl⟩, _, rfl⟩

/-- `UpdateResult`: each clause. -/
theorem witness_UpdateResult :
    attached.busy = false ∧ 16 ≤ 16 ∧ (attached.context 1).valid = false ∧
      ((attached.context 15).valid = true ∧ (attached.context 15).digit = 0#5) ∧
      ((attached.context 0).valid = true ∧ (attached.context 0).digit ≠ 0#5) := by decide

/-- `UpdateCountsAndFrames`. -/
theorem witness_UpdateCountsAndFrames :
    attached.busy = false ∧ (attached.context 0).valid = true ∧ (attached.context 0).digit ≠ 0#5 ∧
      levelAfter .cs true attached.trace = true ∧ ∃ t, exec (.segUpdate (0 : Fin 16)) attached = .next t :=
  ⟨rfl, rfl, by decide, rfl, _, rfl⟩

theorem attached_contexts : ContextsSound attached := by
  refine ⟨by decide, by decide, by decide⟩

/-- `BufferIsTheBitmapOfItsSegments`. -/
theorem witness_BufferIsTheBitmapOfItsSegments :
    ContextsSound attached ∧ (attached.context 0).valid = true ∧ State.reset.busy = false := ⟨attached_contexts, rfl, rfl⟩

/-- `ExceptionIsPrecise`, for a request to `exec` and for one on the port. -/
theorem witness_ExceptionIsPrecise :
    (State.reset.busy = false ∧ ∃ t, exec (.dim 8) State.reset = .next t ∧ t.resp = some (.invalid .dim)) ∧
      (presented (.dim 8)).busy = false ∧ (presented (.dim 8)).host = encode (.dim 8) :: [] ∧
      ∃ t, step (presented (.dim 8)) = .next t ∧ t.resp = some (.invalid .dim) :=
  ⟨⟨rfl, _, rfl, rfl⟩, rfl, rfl, _, rfl, rfl⟩

/-- `EveryRequestIsAnswered`: an answer `OK`. -/
theorem witness_EveryRequestIsAnswered :
    attached.busy = false ∧ ∃ t, exec (.segSet 0 0 1) attached = .next t ∧ t.resp = some .ok := ⟨rfl, _, rfl, rfl⟩

/-- `FaultIsSticky`: a step with FAULT set, and one that raises. -/
theorem witness_FaultIsSticky :
    (∃ t, step { presented (.dim 5) with fault := true, errcode := 5#5 } = .next t ∧
        ({ presented (.dim 5) with fault := true, errcode := 5#5 } : State).fault = true) ∧
      ∃ t, step (presented (.dim 8)) = .next t ∧ t.fault = true := ⟨⟨_, rfl, rfl⟩, _, rfl, rfl⟩

/-- `ReservedSelectorRaises`: the first and the last reserved selector. -/
theorem witness_ReservedSelectorRaises :
    ∀ k ∈ [11, 15],
      let r := port k 0 0 0 (Rows.all 0) 0 []
      ({ State.reset with host := [r] } : State).busy = false ∧ ({ State.reset with host := [r] } : State).host = r :: [] ∧
        11 ≤ r.op.toNat := by
  intro k hk
  refine ⟨rfl, rfl, ?_⟩
  revert hk
  simp only [port]
  revert k
  decide

/-- `StepRunsTheDecodedRequest`. -/
theorem witness_StepRunsTheDecodedRequest :
    (presented (.curs 16 1)).busy = false ∧ (presented (.curs 16 1)).host = encode (.curs 16 1) :: [] ∧
      decode (encode (.curs 16 1)) = .ok (.curs 16 1) := ⟨rfl, rfl, rfl⟩

/-- `BusyBlockAcceptsNothing`: a busy state, and a step of it. -/
theorem witness_BusyBlockAcceptsNothing : sending.busy = true ∧ ∃ t, step sending = .next t := ⟨rfl, _, rfl⟩

/-- `IdleBlockHoldsItsState`. -/
theorem witness_IdleBlockHoldsItsState : attached.busy = false ∧ attached.host = [] := ⟨rfl, rfl⟩

/-- `TraceOnlyGrows`: an idle step with a request, and a busy one. -/
theorem witness_TraceOnlyGrows : (∃ t, step (presented (.dlen 9)) = .next t) ∧ ∃ t, step sending = .next t :=
  ⟨⟨_, rfl⟩, _, rfl⟩

/-- `OnlyAttachAndSetWriteContexts`: a request for each clause, and an address in another context. -/
theorem witness_OnlyAttachAndSetWriteContexts :
    (∃ t, exec (.segUpdate 0) attached = .next t) ∧ (∃ t, exec (.segAttach 0 1 144) attached = .next t) ∧
      (∃ t, exec (.segSet 0 0 1) attached = .next t) ∧ (∀ h d slot, Instr.segUpdate 0 ≠ .segAttach h d slot) ∧
      (∀ h j v, Instr.segUpdate 0 ≠ .segSet h j v) ∧ (⟨15, 1⟩ : BufAddr).h.val ≠ 0 ∧ (⟨15, 1⟩ : BufAddr).k.val ≤ 1 :=
  ⟨⟨_, rfl⟩, ⟨_, rfl⟩, ⟨_, rfl⟩, fun _ _ _ => Instr.noConfusion, fun _ _ _ => Instr.noConfusion, by decide, by decide⟩

/-- `CommandsDependOnOperandsOnly`. -/
theorem witness_CommandsDependOnOperandsOnly :
    (∀ h d slot, Instr.defch 144 7 (Rows.all 31) ≠ .segAttach h d slot) ∧
      (∀ h j v, Instr.defch 144 7 (Rows.all 31) ≠ .segSet h j v) ∧ (∀ h, Instr.defch 144 7 (Rows.all 31) ≠ .segUpdate h) ∧
      attached.busy = false :=
  ⟨fun _ _ _ => Instr.noConfusion, fun _ _ _ => Instr.noConfusion, fun _ => Instr.noConfusion, rfl⟩

theorem sending_control : ControlSound sending := by
  refine ⟨⟨fun _ h => (by cases h), fun _ => rfl⟩, fun p h => ?_⟩
  cases h
  exact ⟨fun h => (by cases h), fun h => by cases h⟩

/-- `RequestInProgressEnds`, and the busy case of `SoundStatesNeverStop`. -/
theorem witness_RequestInProgressEnds : ControlSound sending ∧ sending.busy = true := ⟨sending_control, rfl⟩

/-- `EveryStepKeepsTheInvariant`: a request in progress, whose step answers a next state. -/
theorem witness_EveryStepKeepsTheInvariant : Inv sending ∧ ∃ t, step sending = .next t := by
  refine ⟨⟨sending_control, ⟨rfl, rfl, rfl, rfl, ⟨fun h => (by cases h), ?_⟩, ?_, fun _ v h => (by cases h)⟩, ?_, ?_⟩, _, rfl⟩
  · rintro ⟨p, h, h'⟩
    cases h
    cases h'
  · have h : ∀ a b : Bool, (if a = true then some !b else none) ≠ some b := by decide
    exact fun e => absurd e (h _ _)
  · exact ⟨rfl, by decide, by decide⟩
  · exact ⟨by decide, by decide, fun _ h => (by cases h), fun _ => rfl⟩

/-- `EveryStepKeepsTheWireSound`: after one frame, with a request on the port. -/
theorem witness_EveryStepKeepsTheWireSound : WireSound between ∧ ∃ t, step between = .next t := by
  refine ⟨⟨rfl, rfl, by decide, by decide⟩, _, rfl⟩

end Sys2Proof.Tests
end

section
/-! PROOFS. The events of a frame on the serial transport (R110, R111). -/

namespace Sys2Proof.Machine

/-- The cells of a byte by bit position, as R110's inner loop counts them. -/
theorem byteTrace_eq_flatMap_positions (b : Byte) :
    byteTrace b = [7, 6, 5, 4, 3, 2, 1, 0].flatMap fun j => bitCell (b.getLsbD j) := rfl

/-- A frame by byte and bit position, as R110's two loops count them. -/
theorem sendTrace_eq_flatMap_positions (bs : Bytes) :
    sendTrace bs =
      [Event.set .cs false] ++
      bs.flatMap (fun b => [7, 6, 5, 4, 3, 2, 1, 0].flatMap fun j => bitCell (b.getLsbD j)) ++
      [Event.set .cs true] := by
  simp only [sendTrace, funext byteTrace_eq_flatMap_positions, List.cons_append, List.nil_append]

/-- R111's "holds ≥1 time unit". -/
theorem one_le_holdTime_bit : 1 ≤ holdTime .bit := Nat.le_refl Config.tBit

/-- Settles O12: the two loops of R110 around the bit cell of R111. -/
theorem sendTraceIsBitCells : Obligations.SendTraceIsBitCells := by
  intro bs
  refine ⟨?frame, ?cell, one_le_holdTime_bit⟩
  case frame => exact sendTrace_eq_flatMap_positions bs
  case cell => exact fun _ => rfl

end Sys2Proof.Machine
end

section
/-! PROOFS. Every command of the command encoder is R152's `Encode`, then one frame or the exception. -/

namespace Sys2Proof.Machine

open Sys2Proof.Safety

/-! ## A request to an idle block, by its plan -/

/-- R205: a request whose plan is a rejection ends in the state that `rejected` describes. -/
theorem exec_eq_rejected {i : Instr} {s : State} {code : ErrCode} (idle : s.busy = false)
    (plan : planOf i s = .reject code) : exec i s = .next (rejected i code s) := by
  rw [exec_eq_request, plan, request_idle idle, carryOut_reject]
  rfl

/-- R152: a request whose plan is one frame ends in the state that `sent` describes. -/
theorem exec_eq_sent {i : Instr} {s : State} {bs : Bytes} (idle : s.busy = false)
    (plan : planOf i s = .frames [bs]) : exec i s = .next (sent i bs s) := by
  rw [exec_eq_request, plan, request_idle idle, carryOut_frames, List.foldl_cons, List.foldl_nil, State.sendFrame_eq]
  rfl

/-- R85: an idle block takes the request that stands on the port and runs it. -/
theorem step_eq_exec_take {s : State} {r : Request} {rest : List Request} {i : Instr} (idle : s.busy = false)
    (host : s.host = r :: rest) (decoded : decode r = .ok i) : step s = exec i (s.take r rest) := by
  simp [step, idle, host, decoded]

/-! ## `DLEN` -/

theorem badDlen_iff (n : Nat) : badDlen n = true ↔ n < 9 ∨ 16 < n := by
  simp [badDlen]

/-- R86: selector 3 is `DLEN`. -/
theorem decode_of_op_eq_three {r : Request} (op : r.op = 3#4) : decode r = .ok (.dlen r.a.toNat) := by
  rw [decode, op]
  rfl

theorem planDlen_of_bad {n : Nat} (bad : n < 9 ∨ 16 < n) : planDlen n = .reject .dlen := by
  rw [planDlen, (badDlen_iff n).mpr bad, rejectIf_true]

theorem planDlen_of_good {n : Nat} (good : ¬ (n < 9 ∨ 16 < n)) : planDlen n = .frames [[dlenByte n]] := by
  rw [planDlen, Bool.eq_false_iff.mpr (mt (badDlen_iff n).mp good), rejectIf_false]

/-- Settles O21: the port holds `DLEN`, whose one check separates the exception from the frame. -/
theorem digitLengthOnThePort : Obligations.DigitLengthOnThePort := by
  intro s r rest idle host op
  rw [step_eq_exec_take idle host (decode_of_op_eq_three op)]
  by_cases bad : r.a.toNat < 9 ∨ 16 < r.a.toNat
  case pos =>
    refine ⟨_, exec_eq_rejected idle (planDlen_of_bad bad), rfl, ?_⟩
    rw [if_pos bad]
    exact ⟨rfl, rfl⟩
  case neg =>
    refine ⟨_, exec_eq_sent idle (planDlen_of_good bad), rfl, ?_⟩
    rw [if_neg bad]
    exact ⟨rfl, rfl, rfl, rfl⟩

/-! ## R152's `Encode` -/

/-- The plan of a request whose `Encode` gave this value (R152): the exception, or the one frame. -/
def planOfEncoding : Except ErrCode Bytes → Plan
  | .error code => .reject code
  | .ok bs => .frames [bs]

/-- The plan comes from an `Encode` that answers a cause code or one or two bytes (R152). -/
def IsEncoding (p : Plan) : Prop :=
  ∃ enc : Except ErrCode Bytes, (∀ bs, enc = .ok bs → bs.length = 1 ∨ bs.length = 2) ∧ p = planOfEncoding enc

theorem isEncoding_reject (code : ErrCode) : IsEncoding (.reject code) :=
  ⟨.error code, fun _ h => (nomatch h), rfl⟩

theorem isEncoding_frame {bs : Bytes} (len : bs.length = 1 ∨ bs.length = 2) : IsEncoding (.frames [bs]) :=
  ⟨.ok bs, fun _ h => Except.ok.inj h ▸ len, rfl⟩

/-- A range check before an `Encode` gives an `Encode`. -/
theorem isEncoding_rejectIf (bad : Bool) (code : ErrCode) {p : Plan} (hp : IsEncoding p) :
    IsEncoding (rejectIf bad code p) := by
  cases bad
  case false => exact hp
  case true => exact isEncoding_reject code

/-- The requests of the command encoder (R130, R135, R140, R145, R150). -/
def IsCommand (i : Instr) : Prop :=
  i = .blankNormal ∨ i = .blankAllOn ∨ i = .blankAllOff ∨ (∃ n, i = .dlen n) ∨ (∃ v, i = .dim v) ∨ (∃ f, i = .freq f) ∨
    ∃ p f, i = .curs p f

/-- R152: a command's plan is an `Encode` of its operands, the same in every state. -/
theorem planOf_command {i : Instr} (command : IsCommand i) : ∃ p, IsEncoding p ∧ ∀ s, planOf i s = p := by
  rcases command with rfl | rfl | rfl | ⟨n, rfl⟩ | ⟨v, rfl⟩ | ⟨f, rfl⟩ | ⟨p, f, rfl⟩
  · exact ⟨_, isEncoding_frame (.inl rfl), fun _ => rfl⟩
  · exact ⟨_, isEncoding_frame (.inl rfl), fun _ => rfl⟩
  · exact ⟨_, isEncoding_frame (.inl rfl), fun _ => rfl⟩
  · exact ⟨planDlen n, isEncoding_rejectIf _ _ (isEncoding_frame (.inl rfl)), fun _ => rfl⟩
  · exact ⟨planDim v, isEncoding_rejectIf _ _ (isEncoding_frame (.inl rfl)), fun _ => rfl⟩
  · exact ⟨planFreq f, isEncoding_rejectIf _ _ (isEncoding_frame (.inl rfl)), fun _ => rfl⟩
  · exact ⟨planCurs p f, isEncoding_rejectIf _ _ (isEncoding_rejectIf _ _ (isEncoding_frame (.inr rfl))), fun _ => rfl⟩

/-- Settles O22: the command's plan is an `Encode` fixed before the state, and both its outcomes keep the contexts. -/
theorem commandIsEncodeThenSend : Obligations.CommandIsEncodeThenSend := by
  intro i command
  obtain ⟨_, ⟨enc, lengths, rfl⟩, plan⟩ := planOf_command command
  refine ⟨enc, lengths, fun s idle => ?_⟩
  cases enc
  case error code =>
    refine ⟨_, exec_eq_rejected idle (plan s), rfl, rfl, ?_, fun _ h => (nomatch h)⟩
    rintro _ ⟨⟩
    exact ⟨rfl, rfl⟩
  case ok bs =>
    refine ⟨_, exec_eq_sent idle (plan s), rfl, rfl, fun _ h => (nomatch h), ?_⟩
    rintro _ ⟨⟩
    exact ⟨rfl, rfl⟩

end Sys2Proof.Machine
end

section
/-! PROOFS. The transpose of the character transcoder and its inverse (R161, R162, R163). -/

namespace Sys2Proof

/-! ## The bits of a packed byte -/

/-- R7: the bits of a packed byte, bit 7 first. -/
theorem getLsbD_packByte (b7 b6 b5 b4 b3 b2 b1 b0 : Bool) :
    [7, 6, 5, 4, 3, 2, 1, 0].map (packByte b7 b6 b5 b4 b3 b2 b1 b0).getLsbD = [b7, b6, b5, b4, b3, b2, b1, b0] := by
  have bit (b : Bool) (m : Byte) (j : Nat) : (if b then m else 0#8).getLsbD j = (b && m.getLsbD j) := by
    cases b <;> simp
  simp [packByte, bit, -BitVec.getLsbD_eq_getElem]

/-- A byte is packed from its own bits. -/
theorem packByte_getLsbD (b : Byte) :
    packByte (b.getLsbD 7) (b.getLsbD 6) (b.getLsbD 5) (b.getLsbD 4) (b.getLsbD 3) (b.getLsbD 2) (b.getLsbD 1)
      (b.getLsbD 0) = b := by
  have bits : [7, 6, 5, 4, 3, 2, 1, 0].map (packByte (b.getLsbD 7) (b.getLsbD 6) (b.getLsbD 5) (b.getLsbD 4)
      (b.getLsbD 3) (b.getLsbD 2) (b.getLsbD 1) (b.getLsbD 0)).getLsbD = [7, 6, 5, 4, 3, 2, 1, 0].map b.getLsbD :=
    getLsbD_packByte ..
  have listed : ∀ j < 8, j ∈ [7, 6, 5, 4, 3, 2, 1, 0] := by decide
  exact BitVec.eq_of_getLsbD_eq fun j hj => List.map_inj_left.mp bits j (listed j hj)

/-! ## The bits of a row -/

/-- The number with the five given bits, bit 4 first. -/
def ofFiveBits (b4 b3 b2 b1 b0 : Bool) : Nat :=
  (if b4 then 16 else 0) + (if b3 then 8 else 0) + (if b2 then 4 else 0) + (if b1 then 2 else 0) + (if b0 then 1 else 0)

/-- R162: a decoded row has one bit of each column byte. -/
theorem rowOfColumns_eq_ofFiveBits (c0 c1 c2 c3 c4 : Byte) (r : Nat) :
    rowOfColumns c0 c1 c2 c3 c4 r =
      ofFiveBits (c0.getLsbD (7 - r)) (c1.getLsbD (7 - r)) (c2.getLsbD (7 - r)) (c3.getLsbD (7 - r))
        (c4.getLsbD (7 - r)) := rfl

theorem testBit_ofFiveBits :
    ∀ b4 b3 b2 b1 b0 : Bool, [4, 3, 2, 1, 0].map (ofFiveBits b4 b3 b2 b1 b0).testBit = [b4, b3, b2, b1, b0] := by
  decide

/-- R164: a row value in range is its low five bits. -/
theorem ofFiveBits_testBit :
    ∀ x ≤ 31, ofFiveBits (x.testBit 4) (x.testBit 3) (x.testBit 2) (x.testBit 1) (x.testBit 0) = x := by
  decide

/-! ## The transpose, dot by dot -/

/-- R161: bit `7 - r` of column byte `c` is bit `4 - c` of row `r`. -/
theorem getLsbD_columnByte {rows : Rows Nat} {r x : Nat} (row : rows.toList[r]? = some x) (c : Nat) :
    (columnByte rows c).getLsbD (7 - r) = x.testBit (4 - c) := by
  have inRange : r < rows.toList.length := (List.getElem?_eq_some_iff.mp row).1
  have position : [7, 6, 5, 4, 3, 2, 1, 0][r]? = some (7 - r) :=
    (by decide : ∀ r < 7, [7, 6, 5, 4, 3, 2, 1, 0][r]? = some (7 - r)) r inRange
  have bits : [7, 6, 5, 4, 3, 2, 1, 0].map (columnByte rows c).getLsbD =
      rows.toList.map (fun y => y.testBit (4 - c)) ++ [false] := getLsbD_packByte ..
  have bit := congrArg (·[r]?) bits
  simpa only [List.getElem?_map, position, List.getElem?_append_left (List.length_map _ ▸ inRange), row, Option.map_some,
    Option.some.injEq] using bit

/-- R162: bit `4 - c` of a decoded row `r` is bit `7 - r` of column byte `c`. -/
theorem testBit_rowOfColumns {c0 c1 c2 c3 c4 b : Byte} {c : Nat} (col : [c0, c1, c2, c3, c4][c]? = some b) (r : Nat) :
    (rowOfColumns c0 c1 c2 c3 c4 r).testBit (4 - c) = b.getLsbD (7 - r) := by
  have inRange : c < 5 := (List.getElem?_eq_some_iff.mp col).1
  have position : [4, 3, 2, 1, 0][c]? = some (4 - c) :=
    (by decide : ∀ c < 5, [4, 3, 2, 1, 0][c]? = some (4 - c)) c inRange
  have bits : [4, 3, 2, 1, 0].map (rowOfColumns c0 c1 c2 c3 c4 r).testBit =
      [c0, c1, c2, c3, c4].map (fun d => d.getLsbD (7 - r)) := testBit_ofFiveBits ..
  have bit := congrArg (·[c]?) bits
  simpa only [List.getElem?_map, position, col, Option.map_some, Option.some.injEq] using bit

/-! ## The round trip -/

/-- R163, for one row. -/
theorem rowOfColumns_columnByte {rows : Rows Nat} {r x : Nat} (row : rows.toList[r]? = some x) (bound : x ≤ 31) :
    rowOfColumns (columnByte rows 0) (columnByte rows 1) (columnByte rows 2) (columnByte rows 3) (columnByte rows 4) r =
      x := by
  simp only [rowOfColumns_eq_ofFiveBits, getLsbD_columnByte row]
  exact ofFiveBits_testBit x bound

/-- R163's converse, for one column byte. -/
theorem columnByte_rowsOfColumns {c0 c1 c2 c3 c4 b : Byte} {c : Nat} (col : [c0, c1, c2, c3, c4][c]? = some b)
    (clear : b.getLsbD 0 = false) : columnByte (rowsOfColumns c0 c1 c2 c3 c4) c = b := by
  simp only [columnByte, rowsOfColumns, testBit_rowOfColumns col]
  rw [← clear]
  exact packByte_getLsbD b

/-- R163: `Decode` undoes the column bytes of `Transcode`. -/
theorem rowsOfColumns_columnByte {rows : Rows Nat} (bound : ∀ x ∈ rows.toList, x ≤ 31) :
    rowsOfColumns (columnByte rows 0) (columnByte rows 1) (columnByte rows 2) (columnByte rows 3) (columnByte rows 4) =
      rows := by
  have undone {r x : Nat} (row : rows.toList[r]? = some x) :=
    rowOfColumns_columnByte row (bound x (List.mem_of_getElem? row))
  rw [rowsOfColumns, undone (r := 0) rfl, undone (r := 1) rfl, undone (r := 2) rfl, undone (r := 3) rfl,
    undone (r := 4) rfl, undone (r := 5) rfl, undone (r := 6) rfl]

/-- R163's converse: `Transcode` undoes `Decode` on column bytes with bit 0 clear. -/
theorem transcode_rowsOfColumns (slot : Nat) {c0 c1 c2 c3 c4 : Byte}
    (clear : ∀ c ∈ [c0, c1, c2, c3, c4], c.getLsbD 0 = false) :
    (transcode slot (rowsOfColumns c0 c1 c2 c3 c4)).drop 2 = [c0, c1, c2, c3, c4] := by
  have undone {c : Nat} {b : Byte} (col : [c0, c1, c2, c3, c4][c]? = some b) :=
    columnByte_rowsOfColumns col (clear b (List.mem_of_getElem? col))
  rw [transcode, undone (c := 0) rfl, undone (c := 1) rfl, undone (c := 2) rfl, undone (c := 3) rfl,
    undone (c := 4) rfl]
  rfl

/-- Settles O11: each direction moves every dot to its place and back. -/
theorem transposeRoundTrip : Obligations.TransposeRoundTrip := by
  constructor
  case left => exact fun _ _ _ _ bound => ⟨_, _, _, _, _, _, _, rfl, rowsOfColumns_columnByte bound⟩
  case right => exact fun slot _ _ _ _ _ _ _ clear => transcode_rowsOfColumns slot clear

end Sys2Proof
end

section
/-! PROOFS. A request whose plan is a rejection or a buffer write leaves the wire alone (R175, R181, R205). -/

namespace Sys2Proof.Machine

/-- What the controller can see of the block stands as before: the four latches (R20) and the wire trace (R38). -/
structure WireUnchanged (s t : State) : Prop where
  trace : t.trace = s.trace
  cs : t.cs = s.cs
  clk : t.clk = s.clk
  data : t.data = s.data
  rst : t.rst = s.rst

/-- R118: the frames received are read off the wire trace alone. -/
theorem WireUnchanged.framesOf_eq {s t : State} (same : WireUnchanged s t) : framesOf t.trace = framesOf s.trace :=
  congrArg framesOf same.trace

/-- The plan neither transmits nor pulses the reset line: it takes the exception or writes a buffer. -/
inductive IsLocal : Plan → Prop where
  | reject (code : ErrCode) : IsLocal (.reject code)
  | store (h : Fin Config.nseg) (writes : List (Fin Config.bufLen × Byte)) (binding : Option Context) :
      IsLocal (.store h writes binding)

/-- R175, R180, R205: neither the exception nor a buffer write holds a `drive` or a `wait`. -/
theorem wireUnchanged_carryOut {p : Plan} (isLocal : IsLocal p) (i : Instr) (s : State) :
    WireUnchanged s ((s.accept i).carryOut p) := by
  cases isLocal
  case reject code =>
    rw [carryOut_reject, State.raise_eq]
    exact ⟨rfl, rfl, rfl, rfl, rfl⟩
  case store h writes binding =>
    rw [carryOut_accept_store]
    exact ⟨rfl, rfl, rfl, rfl, rfl⟩

/-- A request with a local plan is silent, also where a busy block does not accept it (R241). -/
theorem wireUnchanged_exec {i : Instr} {s t : State} (isLocal : IsLocal (planOf i s)) (run : exec i s = .next t) :
    WireUnchanged s t := by
  rw [exec_eq_request] at run
  cases busy : s.busy
  case false =>
    rw [request_idle busy] at run
    cases run
    exact wireUnchanged_carryOut isLocal i s
  case true =>
    rw [request_busy busy] at run
    cases run
    exact ⟨rfl, rfl, rfl, rfl, rfl⟩

/-- R180: `SEG.SET` is rejected or stores one byte. -/
theorem isLocal_planSegSet (h i v : Nat) (s : State) : IsLocal (planSegSet h i v s) := by
  rcases planSegSet_cases h i v s with ⟨code, rejects⟩ | ⟨_, _, _, _, stores⟩
  · exact rejects ▸ .reject code
  · exact stores ▸ .store _ _ _

/-- Settles O34: the plan of `SEG.SET` is local, and a local plan leaves latches, trace and received frames. -/
theorem setIsSilentOnTheWire : Obligations.SetIsSilentOnTheWire := by
  intro s t h i v run
  have same : WireUnchanged s t := wireUnchanged_exec (i := .segSet h i v) (isLocal_planSegSet h i v s) run
  exact ⟨same.trace, same.cs, same.clk, same.data, same.rst, same.framesOf_eq⟩

end Sys2Proof.Machine
end

section
/-! PROOFS. The request encoding: the port that `encode` drives and the request that `decode` reads (R85, R86, R93, R130). -/

namespace Sys2Proof

/-! ## Operands and the ports they fit -/

theorem fitsByte_iff (v : Nat) : fitsByte v = true ↔ v < 256 := by simp [fitsByte]

theorem fitsNibble_iff (v : Nat) : fitsNibble v = true ↔ v < 16 := by simp [fitsNibble]

theorem toNat_ofNat_of_fitsByte {v : Nat} (fits : fitsByte v = true) : (BitVec.ofNat 8 v).toNat = v :=
  Nat.mod_eq_of_lt ((fitsByte_iff v).mp fits)

theorem toNat_ofNat_of_fitsNibble {v : Nat} (fits : fitsNibble v = true) : (BitVec.ofNat 4 v).toNat = v :=
  Nat.mod_eq_of_lt ((fitsNibble_iff v).mp fits)

theorem fitsByte_toNat (b : Byte) : fitsByte b.toNat = true := (fitsByte_iff _).mpr b.isLt

theorem fitsNibble_toNat (b : BitVec 4) : fitsNibble b.toNat = true := (fitsNibble_iff _).mpr b.isLt

/-- R85: 8-bit values survive the byte stream. -/
theorem map_toNat_map_ofNat {bytes : List Nat} (fits : ∀ v ∈ bytes, fitsByte v = true) :
    (bytes.map (BitVec.ofNat 8)).map BitVec.toNat = bytes := by
  rw [List.map_map]
  exact (List.map_congr_left fun v hv => toNat_ofNat_of_fitsByte (fits v hv)).trans (List.map_id bytes)

theorem map_ofNat_map_toNat (bs : Bytes) : (bs.map BitVec.toNat).map (BitVec.ofNat 8) = bs := by
  simp [Function.comp_def]

theorem Rows.map_toNat_map_ofNat {rows : Rows Nat} (fits : ∀ v ∈ rows.toList, fitsByte v = true) :
    (rows.map (BitVec.ofNat 8)).map BitVec.toNat = rows := by
  have back {v : Nat} (hv : v ∈ rows.toList) : (BitVec.ofNat 8 v).toNat = v := toNat_ofNat_of_fitsByte (fits v hv)
  cases rows
  simp only [Rows.toList, List.mem_cons] at back
  simp only [Rows.map, back, true_or, or_true]

theorem Rows.map_ofNat_map_toNat (rows : Rows Byte) : (rows.map BitVec.toNat).map (BitVec.ofNat 8) = rows := by
  simp [Rows.map]

theorem Rows.all_fitsByte_map_toNat (rows : Rows Byte) : (rows.map BitVec.toNat).toList.all fitsByte = true := by
  simp [Rows.map, Rows.toList, fitsByte_toNat]

/-! ## Encoding, then decoding -/

/-- Settles O1: `encode` drives the selector of the request and every operand, and an operand that fits reads back. -/
theorem requestDecodeOfEncode : Obligations.RequestDecodeOfEncode := by
  intro i fits
  cases i with
  | creset | blankNormal | blankAllOn | blankAllOff => rfl
  | send bytes => exact congrArg (Except.ok ∘ Instr.send) (map_toNat_map_ofNat (List.all_eq_true.mp fits))
  | dlen n => exact congrArg (Except.ok ∘ Instr.dlen) (toNat_ofNat_of_fitsByte fits)
  | dim v => exact congrArg (Except.ok ∘ Instr.dim) (toNat_ofNat_of_fitsByte fits)
  | freq f => exact congrArg (Except.ok ∘ Instr.freq) (toNat_ofNat_of_fitsByte fits)
  | segUpdate h => exact congrArg (Except.ok ∘ Instr.segUpdate) (toNat_ofNat_of_fitsNibble fits)
  | curs p f =>
    obtain ⟨hp, hf⟩ := Bool.and_eq_true_iff.mp fits
    change Except.ok (Instr.curs (BitVec.ofNat 8 p).toNat (BitVec.ofNat 8 f).toNat) = _
    rw [toNat_ofNat_of_fitsByte hp, toNat_ofNat_of_fitsByte hf]
  | defch slot nrows rows =>
    simp only [Instr.wellFormed, Bool.and_eq_true] at fits
    obtain ⟨⟨hslot, hnrows⟩, hrows⟩ := fits
    change Except.ok (Instr.defch (BitVec.ofNat 8 slot).toNat (BitVec.ofNat 4 nrows).toNat
      ((rows.map (BitVec.ofNat 8)).map BitVec.toNat)) = _
    rw [toNat_ofNat_of_fitsByte hslot, toNat_ofNat_of_fitsNibble hnrows,
      Rows.map_toNat_map_ofNat (List.all_eq_true.mp hrows)]
  | segAttach h d slot =>
    simp only [Instr.wellFormed, Bool.and_eq_true] at fits
    obtain ⟨⟨hh, hd⟩, hslot⟩ := fits
    change Except.ok (Instr.segAttach (BitVec.ofNat 4 h).toNat (BitVec.ofNat 8 d).toNat (BitVec.ofNat 8 slot).toNat) = _
    rw [toNat_ofNat_of_fitsNibble hh, toNat_ofNat_of_fitsByte hd, toNat_ofNat_of_fitsByte hslot]
  | segSet h i v =>
    simp only [Instr.wellFormed, Bool.and_eq_true] at fits
    obtain ⟨⟨hh, hi⟩, hv⟩ := fits
    change Except.ok (Instr.segSet (BitVec.ofNat 4 h).toNat (BitVec.ofNat 8 i).toNat (BitVec.ofNat 8 v).toNat) = _
    rw [toNat_ofNat_of_fitsNibble hh, toNat_ofNat_of_fitsByte hi, toNat_ofNat_of_fitsByte hv]

/-! ## Decoding, then encoding -/

/-- Settles O3: each clause reads the row of R86's table that the selector names. -/
theorem selectorsChooseTheRequest : Obligations.SelectorsChooseTheRequest := by
  intro r
  refine ⟨?send, ?creset, ?normal, ?allOn, ?allOff, ?dlen, ?dim, ?freq, ?curs, ?defch, ?attach, ?set, ?update⟩
  case normal | allOn | allOff =>
    intro op mode
    rw [decode, op, mode]
    rfl
  all_goals
    intro op
    rw [decode, op]
    rfl

/-- R93: a reserved selector decodes to `E_OP`. -/
theorem decode_of_reserved {r : Request} (reserved : 11 ≤ r.op.toNat) : decode r = .error .op := by
  obtain ⟨k, hk⟩ : ∃ k, r.op.toNat = k + 11 := ⟨r.op.toNat - 11, by omega⟩
  rw [decode, hk]
  rfl

/-- R130: a `BLANK` mode above 2 decodes to `E_MODE`. -/
theorem decode_of_bad_mode {r : Request} (op : r.op = 2#4) (mode : 2 < r.a.toNat) : decode r = .error .mode := by
  obtain ⟨k, hk⟩ : ∃ k, r.a.toNat = k + 3 := ⟨r.a.toNat - 3, by omega⟩
  rw [decode, op, hk]
  rfl

/-- The port holds request `i`: it decodes to `i`, which fits the ports and would drive every signal it uses as it stands. -/
def HoldsRequest (r : Request) (i : Instr) : Prop := decode r = .ok i ∧ i.wellFormed = true ∧ i.onto r = r

/-- R86, R93, R130: what the decoder can answer. -/
theorem decode_cases (r : Request) :
    (11 ≤ r.op.toNat ∧ decode r = .error .op) ∨ (r.op = 2#4 ∧ 2 < r.a.toNat ∧ decode r = .error .mode) ∨
      ∃ i, HoldsRequest r i := by
  obtain ⟨send, creset, normal, allOn, allOff, dlen, dim, freq, curs, defch, attach, set, update⟩ :=
    selectorsChooseTheRequest r
  obtain ⟨op, a, b, h, rows, nrows, bytes⟩ := r
  have selectors : ∀ op : BitVec 4, op = 0#4 ∨ op = 1#4 ∨ op = 2#4 ∨ op = 3#4 ∨ op = 4#4 ∨ op = 5#4 ∨ op = 6#4 ∨
    op = 7#4 ∨ op = 8#4 ∨ op = 9#4 ∨ op = 10#4 ∨ 11 ≤ op.toNat := by decide
  have modes : a = 0#8 ∨ a = 1#8 ∨ a = 2#8 ∨ 2 < a.toNat := by bv_omega
  rcases selectors op with rfl | rfl | rfl | rfl | rfl | rfl | rfl | rfl | rfl | rfl | rfl | reserved
  · refine .inr (.inr ⟨_, send rfl, ?_, ?_⟩)
    · simp [Instr.wellFormed, fitsByte_toNat]
    · simp only [Instr.onto, map_ofNat_map_toNat]
  · exact .inr (.inr ⟨_, creset rfl, rfl, rfl⟩)
  · rcases modes with rfl | rfl | rfl | bad
    · exact .inr (.inr ⟨_, normal rfl rfl, rfl, rfl⟩)
    · exact .inr (.inr ⟨_, allOn rfl rfl, rfl, rfl⟩)
    · exact .inr (.inr ⟨_, allOff rfl rfl, rfl, rfl⟩)
    · exact .inr (.inl ⟨rfl, bad, decode_of_bad_mode rfl bad⟩)
  · refine .inr (.inr ⟨_, dlen rfl, fitsByte_toNat a, ?_⟩)
    simp [Instr.onto]
  · refine .inr (.inr ⟨_, dim rfl, fitsByte_toNat a, ?_⟩)
    simp [Instr.onto]
  · refine .inr (.inr ⟨_, freq rfl, fitsByte_toNat a, ?_⟩)
    simp [Instr.onto]
  · refine .inr (.inr ⟨_, curs rfl, ?_, ?_⟩)
    · simp [Instr.wellFormed, fitsByte_toNat]
    · simp [Instr.onto]
  · refine .inr (.inr ⟨_, defch rfl, ?_, ?_⟩)
    · simp only [Instr.wellFormed, fitsByte_toNat, fitsNibble_toNat, Rows.all_fitsByte_map_toNat, Bool.and_self]
    · simp only [Instr.onto, Rows.map_ofNat_map_toNat, BitVec.ofNat_toNat, BitVec.setWidth_eq]
  · refine .inr (.inr ⟨_, attach rfl, ?_, ?_⟩)
    · simp [Instr.wellFormed, fitsByte_toNat, fitsNibble_toNat]
    · simp [Instr.onto]
  · refine .inr (.inr ⟨_, set rfl, ?_, ?_⟩)
    · simp [Instr.wellFormed, fitsByte_toNat, fitsNibble_toNat]
    · simp [Instr.onto]
  · refine .inr (.inr ⟨_, update rfl, fitsNibble_toNat h, ?_⟩)
    simp [Instr.onto]
  · exact .inl ⟨reserved, decode_of_reserved reserved⟩

/-- Settles O2: only the third case of `decode_cases` answers a request. -/
theorem requestEncodeOfDecode : Obligations.RequestEncodeOfDecode := by
  intro r i decoded
  rcases decode_cases r with ⟨_, rejects⟩ | ⟨_, _, rejects⟩ | ⟨j, holds, fits, driven⟩
  · cases decoded.symm.trans rejects
  · cases decoded.symm.trans rejects
  · cases decoded.symm.trans holds
    exact ⟨fits, driven⟩

/-- Settles O4: the first two cases of `decode_cases` are the ports that the two codes name. -/
theorem decodeFailsExactlyOnReserved : Obligations.DecodeFailsExactlyOnReserved := by
  intro r c
  constructor
  case mp =>
    intro failed
    rcases decode_cases r with ⟨reserved, rejects⟩ | ⟨op, mode, rejects⟩ | ⟨i, holds, _, _⟩
    · cases failed.symm.trans rejects
      exact .inl ⟨rfl, reserved⟩
    · cases failed.symm.trans rejects
      exact .inr ⟨rfl, op, mode⟩
    · cases failed.symm.trans holds
  case mpr =>
    rintro (⟨rfl, reserved⟩ | ⟨rfl, op, mode⟩)
    · exact decode_of_reserved reserved
    · exact decode_of_bad_mode op mode

end Sys2Proof
end

section
/-! PROOFS. The wire encoding: the open opcodes, frames read back as their requests, and the map of the 256 byte values (R81 to
R92, R153). -/

namespace Sys2Proof

/-! ## The open opcodes -/

/-- D5: every value that `OP_FREQ` may have is even. -/
theorem getLsbD_zero_opFreqOf : ∀ k : Fin 108, (Config.opFreqOf k).getLsbD 0 = false := by decide

/-- D5: the values that `OP_FREQ` may have. -/
theorem toNat_opFreqOf (k : Fin 108) :
    (0x10 ≤ (Config.opFreqOf k).toNat ∧ (Config.opFreqOf k).toNat ≤ 0xDE) ∨
      (0xF6 ≤ (Config.opFreqOf k).toNat ∧ (Config.opFreqOf k).toNat ≤ 0xFA) ∨ (Config.opFreqOf k).toNat = 0xFE := by
  unfold Config.opFreqOf
  split
  next => rw [BitVec.toNat_ofNat]; omega
  next =>
  split
  next => rw [BitVec.toNat_ofNat]; omega
  next => exact .inr (.inr rfl)

/-- A flag in bit 0 of an even byte adds to it. -/
theorem toNat_or_flag : ∀ b : Byte, b.getLsbD 0 = false → ∀ f ≤ 1, (b ||| BitVec.ofNat 8 f).toNat = b.toNat + f := by
  have set : ∀ b : Byte, b.getLsbD 0 = false → (b ||| 1#8).toNat = b.toNat + 1 := by decide
  intro b even f hf
  obtain rfl | rfl : f = 0 ∨ f = 1 := by omega
  · simp
  · exact set b even

/-- R89: the byte of `FREQ f` is `OP_FREQ` with `f` in bit 0. -/
theorem toNat_freqByte {f : Nat} (hf : f ≤ 1) : (freqByte f).toNat = Config.opFreq.toNat + f :=
  toNat_or_flag Config.opFreq (getLsbD_zero_opFreqOf _) f hf

/-- D5: neither byte of `FREQ` is another command's, whatever value `OP_FREQ` has. -/
theorem freqByte_outside_commands {f : Nat} (hf : f ≤ 1) :
    0x0F < (freqByte f).toNat ∧ ¬ (0xE0 ≤ (freqByte f).toNat ∧ (freqByte f).toNat ≤ 0xF5) ∧ (freqByte f).toNat ≠ 0xFC := by
  have values := toNat_opFreqOf Config.opFreqChoice
  rw [toNat_freqByte hf, Config.opFreq]
  omega

/-- The three blanking constants (R131 to R133). -/
def blankConstants : List Byte := [Config.blankNormal, Config.blankAllOn, Config.blankAllOff]

theorem mem_blankConstants {b : Byte} :
    b ∈ blankConstants ↔ b = Config.blankNormal ∨ b = Config.blankAllOn ∨ b = Config.blankAllOff := by
  simp [blankConstants]

/-- D6: each assignment of the constants takes values of `0xF0..0xF3`. -/
theorem blankOf_range (k : Fin 24) :
    ∀ b ∈ [(Config.blankOf k).1, (Config.blankOf k).2.1, (Config.blankOf k).2.2], 0xF0 ≤ b.toNat ∧ b.toNat ≤ 0xF3 := by
  have hk := k.isLt
  simp only [Config.blankOf, List.forall_mem_cons, List.not_mem_nil, false_implies, implies_true, BitVec.toNat_ofNat]
  exact ⟨by omega, by omega, by omega, trivial⟩

/-- D6: the blanking constants lie in `0xF0..0xF3`. -/
theorem blankConstants_range : ∀ b ∈ blankConstants, 0xF0 ≤ b.toNat ∧ b.toNat ≤ 0xF3 := blankOf_range Config.blankChoice

/-- D6: the blanking constants are distinct. -/
theorem blankConstants_nodup : blankConstants.Nodup :=
  (by decide : ∀ k : Fin 24, [(Config.blankOf k).1, (Config.blankOf k).2.1, (Config.blankOf k).2.2].Nodup)
    Config.blankChoice

/-- Settles O8: the constraints hold for each value that the opaque choices can select. -/
theorem openOpcodesAreAdmissible : Obligations.OpenOpcodesAreAdmissible :=
  ⟨getLsbD_zero_opFreqOf _, fun _ => freqByte_outside_commands, blankConstants_range, blankConstants_nodup⟩

/-! ## One-byte frames -/

/-- R153: the top five bits tell the bytes of `DLEN`. -/
theorem and_F8_eq_opDlen_iff : ∀ b : Byte, b &&& 0xF8#8 = Config.opDlen ↔ b.toNat < 8 := by decide

/-- R153: the top five bits tell the bytes of `DIM`. -/
theorem and_F8_eq_opDim_iff : ∀ b : Byte, b &&& 0xF8#8 = Config.opDim ↔ 8 ≤ b.toNat ∧ b.toNat < 16 := by decide

/-- A byte is its top seven bits and bit 0. -/
theorem and_FE_or_and_one : ∀ b : Byte, (b &&& 0xFE#8) ||| BitVec.ofNat 8 (b &&& 1#8).toNat = b := by decide

/-- R153: the top seven bits tell the bytes of `FREQ`, and bit 0 is the operand. -/
theorem freqByte_fields {f : Nat} (hf : f ≤ 1) :
    freqByte f &&& 0xFE#8 = Config.opFreq ∧ (freqByte f &&& 1#8).toNat = f :=
  (by decide : ∀ k : Fin 108, ∀ f ≤ 1, (Config.opFreqOf k ||| BitVec.ofNat 8 f) &&& 0xFE#8 = Config.opFreqOf k ∧
    ((Config.opFreqOf k ||| BitVec.ofNat 8 f) &&& 1#8).toNat = f) Config.opFreqChoice f hf

theorem freqByte_of_and_FE {b : Byte} (h : b &&& 0xFE#8 = Config.opFreq) : freqByte (b &&& 1#8).toNat = b := by
  rw [freqByte, ← h]
  exact and_FE_or_and_one b

/-- D5, D6: no blanking constant is a byte of `FREQ`. -/
theorem ne_freqByte_of_blankRange {b : Byte} (range : 0xF0 ≤ b.toNat ∧ b.toNat ≤ 0xF3) {f : Nat} (hf : f ≤ 1) :
    b ≠ freqByte f := by
  rintro rfl
  have outside := (freqByte_outside_commands hf).2.1
  omega

theorem and_FE_ne_opFreq_of_blankRange {b : Byte} (range : 0xF0 ≤ b.toNat ∧ b.toNat ≤ 0xF3) :
    b &&& 0xFE#8 ≠ Config.opFreq := by
  intro h
  have bit : ∀ b : Byte, (b &&& 1#8).toNat ≤ 1 := by decide
  exact ne_freqByte_of_blankRange range (bit b) (freqByte_of_and_FE h).symm

/-- R153, on the values of `0xF0..0xF3`: what is left to tell apart is the three constants. -/
theorem decodeW1_of_blankRange {b : Byte} (range : 0xF0 ≤ b.toNat ∧ b.toNat ≤ 0xF3) :
    decodeW1 b =
      if b = Config.blankNormal then .blankNormal
      else if b = Config.blankAllOn then .blankAllOn
      else if b = Config.blankAllOff then .blankAllOff
      else .send [b.toNat] := by
  rw [decodeW1, if_neg (mt (and_F8_eq_opDlen_iff b).mp (by omega)), if_neg (mt (and_F8_eq_opDim_iff b).mp (by omega)),
    if_neg (and_FE_ne_opFreq_of_blankRange range)]

theorem decodeW1_freqByte {f : Nat} (hf : f ≤ 1) : decodeW1 (freqByte f) = .freq f := by
  have above := (freqByte_outside_commands hf).1
  obtain ⟨base, operand⟩ := freqByte_fields hf
  rw [decodeW1, if_neg (mt (and_F8_eq_opDlen_iff _).mp (by omega)), if_neg (mt (and_F8_eq_opDim_iff _).mp (by omega)),
    if_pos base, operand]

theorem decodeW1_blankConstants :
    decodeW1 Config.blankNormal = .blankNormal ∧ decodeW1 Config.blankAllOn = .blankAllOn ∧
      decodeW1 Config.blankAllOff = .blankAllOff := by
  have distinct := blankConstants_nodup
  have range := blankConstants_range
  simp only [blankConstants, List.nodup_cons, List.mem_cons, List.not_mem_nil, or_false, not_or, forall_eq_or_imp,
    forall_eq] at distinct range
  obtain ⟨⟨normal_on, normal_off⟩, on_off, _⟩ := distinct
  obtain ⟨normal, on, off⟩ := range
  rw [decodeW1_of_blankRange normal, decodeW1_of_blankRange on, decodeW1_of_blankRange off]
  simp [Ne.symm normal_on, Ne.symm normal_off, Ne.symm on_off]

/-- R84, R153: the request read from a one-byte frame sends that byte. -/
theorem encodeFrame_decodeW1 (b : Byte) : encodeFrame (decodeW1 b) = some [b] := by
  have dlen : ∀ b : Byte, b.toNat < 8 → dlenByte ((b &&& 7#8).toNat + Config.dlenMin) = b := by decide
  have dim : ∀ b : Byte, 8 ≤ b.toNat ∧ b.toNat < 16 → dimByte (b &&& 7#8).toNat = b := by decide
  unfold decodeW1
  split
  next h => rw [encodeFrame, dlen b ((and_F8_eq_opDlen_iff b).mp h)]
  next =>
  split
  next h => rw [encodeFrame, dim b ((and_F8_eq_opDim_iff b).mp h)]
  next =>
  split
  next h => rw [encodeFrame, freqByte_of_and_FE h]
  next =>
  split
  next h => rw [encodeFrame, h]
  next =>
  split
  next h => rw [encodeFrame, h]
  next =>
  split
  next h => rw [encodeFrame, h]
  next => exact congrArg some (map_ofNat_map_toNat [b])

/-! ## Frames of two and of seven bytes -/

theorem decodeW2_cursBytes :
    ∀ p ≤ 16, 1 ≤ p → ∀ f ≤ 1, decodeFrame (cursBytes p f) = .curs p f := by decide

/-- R84, R153: the request read from a two-byte frame sends those bytes. -/
theorem encodeFrame_decodeW2 (b0 b1 : Byte) : encodeFrame (decodeW2 b0 b1) = some [b0, b1] := by
  have position : ∀ b : Byte, b &&& 0xF0#8 = Config.opCurs →
      Config.opCurs ||| BitVec.ofNat 8 ((b &&& 15#8).toNat + 1 - 1) = b := by decide
  have flag : ∀ b : Byte, b &&& 0xFE#8 = Config.opAinc → Config.opAinc ||| BitVec.ofNat 8 (b &&& 1#8).toNat = b := by
    decide
  unfold decodeW2
  split
  next h => rw [encodeFrame, cursBytes, position b0 h.1, flag b1 h.2]
  next => exact congrArg some (map_ofNat_map_toNat [b0, b1])

/-- The bit-0 test of `decodeW7` on all five column bytes at once. -/
theorem or_and_one_eq_zero_iff (c0 c1 c2 c3 c4 : Byte) :
    (c0 ||| c1 ||| c2 ||| c3 ||| c4) &&& 1#8 = 0#8 ↔ ∀ c ∈ [c0, c1, c2, c3, c4], c.getLsbD 0 = false := by
  have bit0 : ∀ b : Byte, b &&& 1#8 = 0#8 ↔ b.getLsbD 0 = false := by decide
  rw [bit0]
  simp [-BitVec.getLsbD_eq_getElem, and_assoc]

theorem getLsbD_zero_columnByte (rows : Rows Nat) (c : Nat) : (columnByte rows c).getLsbD 0 = false :=
  congrArg (·[7]?) (getLsbD_packByte ..) |> Option.some.inj

/-- R83: a slot code's offset byte has a zero top half and gives the slot back. -/
theorem slotOffset_fields :
    ∀ slot ≤ 159, 144 ≤ slot → slotOffset slot &&& 0xF0#8 = 0#8 ∧ Config.ramBase + (slotOffset slot).toNat = slot := by
  decide

theorem decodeFrame_transcode {slot : Nat} {rows : Rows Nat} (low : 144 ≤ slot) (high : slot ≤ 159)
    (bound : ∀ x ∈ rows.toList, x ≤ 31) : decodeFrame (transcode slot rows) = .defch slot 7 rows := by
  obtain ⟨topHalf, back⟩ := slotOffset_fields slot high low
  have clear := (or_and_one_eq_zero_iff (columnByte rows 0) (columnByte rows 1) (columnByte rows 2) (columnByte rows 3)
    (columnByte rows 4)).mpr (by simp [getLsbD_zero_columnByte, -BitVec.getLsbD_eq_getElem])
  rw [transcode, decodeFrame, decodeW7, if_pos ⟨rfl, topHalf, clear⟩, back, rowsOfColumns_columnByte bound]

/-- R84, R162: the request read from a seven-byte frame sends those bytes. -/
theorem encodeFrame_decodeW7 (o s c0 c1 c2 c3 c4 : Byte) :
    encodeFrame (decodeW7 o s c0 c1 c2 c3 c4) = some [o, s, c0, c1, c2, c3, c4] := by
  unfold decodeW7
  split
  next h =>
    obtain ⟨opcode, _, clear⟩ := h
    have slot : slotOffset (Config.ramBase + s.toNat) = s := by simp [slotOffset]
    have columns := transcode_rowsOfColumns (Config.ramBase + s.toNat) ((or_and_one_eq_zero_iff c0 c1 c2 c3 c4).mp clear)
    rw [encodeFrame, ← columns, transcode, slot, opcode]
    rfl
  next => exact congrArg some (map_ofNat_map_toNat [o, s, c0, c1, c2, c3, c4])

/-! ## Frames of any length -/

/-- Settles O5: the fixed bits of each format single out its branch of the decoder, and its fields are the operands. -/
theorem frameDecodeOfEncode : Obligations.FrameDecodeOfEncode := by
  obtain ⟨normal, allOn, allOff⟩ := decodeW1_blankConstants
  refine ⟨?dlen, ?dim, fun f => decodeW1_freqByte, normal, allOn, allOff, ?curs, ?defch⟩
  case dlen => exact fun n low high => (by decide : ∀ n ≤ 16, 9 ≤ n → decodeFrame [dlenByte n] = .dlen n) n high low
  case dim => exact (by decide : ∀ v ≤ 7, decodeFrame [dimByte v] = .dim v)
  case curs => exact fun p f low high hf => decodeW2_cursBytes p high low f hf
  case defch => exact fun slot rows => decodeFrame_transcode

/-- Settles O6: the decoder answers a command whose frame the bytes are, or the `SEND` of the bytes. -/
theorem frameEncodeOfDecode : Obligations.FrameEncodeOfDecode := by
  intro bs
  unfold decodeFrame
  split
  · exact encodeFrame_decodeW1 _
  · exact encodeFrame_decodeW2 _ _
  · exact encodeFrame_decodeW7 ..
  · exact congrArg some (map_ofNat_map_toNat bs)

/-- Settles O9: the five words, each by evaluation. -/
theorem decodedWordsAreRight : Obligations.DecodedWordsAreRight :=
  ⟨rfl, rfl, rfl, rfl, rfl⟩

/-! ## The map of byte values -/

theorem regionOf_eq_display_iff : ∀ b : Byte, regionOf b = .display ↔
    (0x20 ≤ b.toNat ∧ b.toNat ≤ 0x7F) ∨ (0xA0 ≤ b.toNat ∧ b.toNat ≤ 0xDF) := by decide

theorem regionOf_eq_blanking_iff : ∀ b : Byte, regionOf b = .blanking ↔ 0xF0 ≤ b.toNat ∧ b.toNat ≤ 0xF3 := by decide

theorem regionOf_eq_unassigned_iff : ∀ b : Byte, regionOf b = .unassigned ↔
    (0x10 ≤ b.toNat ∧ b.toNat ≤ 0x1F) ∨ (0x80 ≤ b.toNat ∧ b.toNat ≤ 0x8F) ∨ (0xF6 ≤ b.toNat ∧ b.toNat ≤ 0xFB) ∨
      0xFD ≤ b.toNat := by decide

theorem regionOf_slotCode :
    ∀ b : Byte, 0x90 ≤ b.toNat ∧ b.toNat ≤ 0x9F → regionOf b = .slotCode (b.toNat - 144) := by decide

/-- R92: where a row is assigned and is not the blanking row, the class of a byte is its row. -/
theorem classify_of_regionOf {b : Byte} {c : ByteClass} (row : regionOf b = c) (hu : c ≠ .unassigned)
    (hb : c ≠ .blanking) : classify b = c := by
  unfold classify
  split
  next h => exact absurd (row.symm.trans h) hu
  next h => exact absurd (row.symm.trans h) hb
  next => exact row

theorem classify_of_unassigned {b : Byte} (row : regionOf b = .unassigned) : classify b = frequencyOrUnassigned b := by
  rw [classify, row]

theorem classify_of_blanking {b : Byte} (row : regionOf b = .blanking) :
    classify b = if b ∈ blankConstants then .blanking else .unassigned := by
  rw [classify, row]
  simp only [mem_blankConstants]

theorem classify_blankConstants {b : Byte} (hb : b ∈ blankConstants) : classify b = .blanking := by
  rw [classify_of_blanking ((regionOf_eq_blanking_iff b).mpr (blankConstants_range b hb)), if_pos hb]

theorem frequencyOrUnassigned_freqByte {f : Nat} (hf : f ≤ 1) : frequencyOrUnassigned (freqByte f) = .frequency f := by
  have apart : freqByte 1 ≠ freqByte 0 := fun h => by
    have operand := (freqByte_fields (le_refl 1)).2
    rw [h, (freqByte_fields (Nat.zero_le 1)).2] at operand
    cases operand
  obtain rfl | rfl : f = 0 ∨ f = 1 := by omega
  · exact if_pos rfl
  · rw [frequencyOrUnassigned, if_neg apart, if_pos rfl]

/-- R53, R63, R92: the byte of `FREQ` is a slot code or a display code where its row is, else the frequency command. -/
theorem classify_freqByte {f : Nat} (hf : f ≤ 1) : classify (freqByte f) =
    if 0x90 ≤ (freqByte f).toNat ∧ (freqByte f).toNat ≤ 0x9F then .slotCode ((freqByte f).toNat - 144)
    else if (0x20 ≤ (freqByte f).toNat ∧ (freqByte f).toNat ≤ 0x7F) ∨ (0xA0 ≤ (freqByte f).toNat ∧ (freqByte f).toNat ≤ 0xDF)
    then .display
    else .frequency f := by
  split
  next slot => exact classify_of_regionOf (regionOf_slotCode _ slot) nofun nofun
  next noSlot =>
  split
  next display => exact classify_of_regionOf ((regionOf_eq_display_iff _).mpr display) nofun nofun
  next noDisplay =>
    have outside := freqByte_outside_commands hf
    rw [classify_of_unassigned ((regionOf_eq_unassigned_iff _).mpr (by omega)), frequencyOrUnassigned_freqByte hf]

/-- R92: a byte's class is its row, but in the two rows that the open opcodes divide. -/
theorem classify_cases (b : Byte) :
    (regionOf b = .unassigned ∧ classify b = frequencyOrUnassigned b) ∨
      (regionOf b = .blanking ∧ classify b = if b ∈ blankConstants then .blanking else .unassigned) ∨
      (regionOf b ≠ .unassigned ∧ regionOf b ≠ .blanking ∧ classify b = regionOf b) := by
  by_cases hu : regionOf b = .unassigned
  · exact .inl ⟨hu, classify_of_unassigned hu⟩
  · by_cases hb : regionOf b = .blanking
    · exact .inr (.inl ⟨hb, classify_of_blanking hb⟩)
    · exact .inr (.inr ⟨hu, hb, classify_of_regionOf rfl hu hb⟩)

theorem frequencyOrUnassigned_eq_unassigned_iff (b : Byte) :
    frequencyOrUnassigned b = .unassigned ↔ b ≠ freqByte 0 ∧ b ≠ freqByte 1 := by
  unfold frequencyOrUnassigned
  split
  next h => simp [h]
  next h => split <;> simp_all

theorem frequencyOrUnassigned_ne {b : Byte} {c : ByteClass} (hu : c ≠ .unassigned) (hf : ∀ f, c ≠ .frequency f) :
    frequencyOrUnassigned b ≠ c := by
  rcases Machine.frequencyOrUnassigned_cases b with ⟨_, e⟩ | ⟨_, _, e⟩ | ⟨_, _, e⟩
  · exact e ▸ (hf 0).symm
  · exact e ▸ (hf 1).symm
  · exact e ▸ hu.symm

/-- R53, R63: the display codes are the rows of display codes, whatever `OP_FREQ` is. -/
theorem classify_eq_display_iff (b : Byte) : classify b = .display ↔ regionOf b = .display := by
  rcases classify_cases b with ⟨row, e⟩ | ⟨row, e⟩ | ⟨_, _, e⟩
  · simp [row, e, frequencyOrUnassigned_ne]
  · rw [row, e]
    split <;> simp
  · rw [e]

/-- R131 to R133: no byte but the three constants is a blanking command. -/
theorem classify_eq_blanking_iff (b : Byte) : classify b = .blanking ↔ b ∈ blankConstants := by
  refine ⟨fun h => ?_, classify_blankConstants⟩
  rcases classify_cases b with ⟨_, e⟩ | ⟨_, e⟩ | ⟨_, notBlanking, e⟩
  · exact absurd (e.symm.trans h) (frequencyOrUnassigned_ne nofun nofun)
  · by_contra other
    rw [e, if_neg other] at h
    cases h
  · exact absurd (e.symm.trans h) notBlanking

/-- U6: the unassigned values are the unassigned rows without the frequency pair, and the fourth value of `0xF0..0xF3`. -/
theorem classify_eq_unassigned_iff (b : Byte) : classify b = .unassigned ↔
    b ≠ freqByte 0 ∧ b ≠ freqByte 1 ∧ (regionOf b = .unassigned ∨ regionOf b = .blanking ∧ b ∉ blankConstants) := by
  rcases classify_cases b with ⟨row, e⟩ | ⟨row, e⟩ | ⟨notUnassigned, notBlanking, e⟩
  · simp [row, e, frequencyOrUnassigned_eq_unassigned_iff]
  · have range := (regionOf_eq_blanking_iff b).mp row
    have pair {f : Nat} (hf : f ≤ 1) : b ≠ freqByte f := ne_freqByte_of_blankRange range hf
    simp [row, e, pair]
  · simp [e, notUnassigned, notBlanking]

/-- Settles O7: each encoder's byte has its row, and the three iffs come from `classify_cases`. -/
theorem encoderBytesStayInTheirRegions : Obligations.EncoderBytesStayInTheirRegions := by
  refine ⟨?dlen, ?dim, ?curs, ?normal, ?allOn, ?allOff, rfl, ?slot, ?freq, ?display, ?blanking, ?unassigned⟩
  case dlen =>
    intro n low high
    exact classify_of_regionOf ((by decide : ∀ n ≤ 16, 9 ≤ n → regionOf (dlenByte n) = .digitLength n) n high low)
      nofun nofun
  case dim =>
    intro v high
    exact classify_of_regionOf ((by decide : ∀ v ≤ 7, regionOf (dimByte v) = .dimmer v) v high) nofun nofun
  case curs =>
    intro p f low high hf
    have position : regionOf (Config.opCurs ||| BitVec.ofNat 8 (p - 1)) = .cursor p :=
      (by decide : ∀ p ≤ 16, 1 ≤ p → regionOf (Config.opCurs ||| BitVec.ofNat 8 (p - 1)) = .cursor p) p high low
    have flag : regionOf (Config.opAinc ||| BitVec.ofNat 8 f) = .autoInc (decide (f = 1)) :=
      (by decide : ∀ f ≤ 1, regionOf (Config.opAinc ||| BitVec.ofNat 8 f) = .autoInc (decide (f = 1))) f hf
    rw [cursBytes, List.map_cons, List.map_cons, List.map_nil, classify_of_regionOf position nofun nofun,
      classify_of_regionOf flag nofun nofun]
  case normal | allOn | allOff => exact classify_blankConstants (by simp [blankConstants])
  case slot =>
    intro slot low high
    have value : (BitVec.ofNat 8 slot).toNat = slot := Nat.mod_eq_of_lt (by omega)
    have offset := (slotOffset_fields slot high low).2
    rw [classify_of_regionOf (regionOf_slotCode _ (by omega)) nofun nofun, value, Nat.sub_eq_of_eq_add' offset.symm]
  case freq => exact fun f => classify_freqByte
  case display => exact fun b => (classify_eq_display_iff b).trans (regionOf_eq_display_iff b)
  case blanking => exact fun b => (classify_eq_blanking_iff b).trans mem_blankConstants
  case unassigned =>
    intro b
    rw [classify_eq_unassigned_iff, regionOf_eq_unassigned_iff, regionOf_eq_blanking_iff, mem_blankConstants]
    have reorder (p q r u x : Prop) : (p ∨ q ∨ r ∨ u) ∨ x ↔ p ∨ q ∨ x ∨ r ∨ u := by tauto
    simp only [reorder, not_or, and_assoc, ne_eq]

end Sys2Proof
end

section
/-! PROOFS. Where `Transcode` puts each dot of a bitmap (R161). -/

namespace Sys2Proof

/-- R161: after the two header bytes stand the column bytes, leftmost column first. -/
theorem transcode_getElem?_column (slot : Nat) (rows : Rows Nat) :
    ∀ c ≤ 4, (transcode slot rows)[2 + c]? = some (columnByte rows c)
  | 0, _ | 1, _ | 2, _ | 3, _ | 4, _ => rfl

/-- Settles O10: the header by its place, the dots by `getLsbD_columnByte`. -/
theorem transcodePlacesEveryDot : Obligations.TranscodePlacesEveryDot := by
  intro slot rows _ _
  refine ⟨rfl, rfl, rfl, fun c hc => ?_⟩
  exact ⟨columnByte rows c, transcode_getElem?_column slot rows c hc, getLsbD_zero_columnByte rows c,
    fun r x row => getLsbD_columnByte row c⟩

end Sys2Proof
end

section
/-! PROOFS. What the controller receives: counts of a frame, the transport law, and wire equivalence (R10, R118, R119, R120). -/

namespace Sys2Proof.Machine

/-! ## Counts -/

theorem length_byteTrace (b : Byte) : (byteTrace b).length = 40 := rfl

/-- A count over a frame is the count of its two chip-select events and as much for each byte. -/
theorem countP_sendTrace (p : Event → Bool) {n : Nat} (perByte : ∀ b, (byteTrace b).countP p = n) (bs : Bytes) :
    (sendTrace bs).countP p = [Event.set .cs false, .set .cs true].countP p + n * bs.length := by
  have bytes : (bs.flatMap byteTrace).countP p = n * bs.length := by
    rw [List.countP_flatMap]
    simp [Function.comp_def, perByte, Nat.mul_comm]
  simp only [sendTrace, List.countP_cons, List.countP_append, bytes, List.countP_nil]
  omega

theorem length_sendTrace (bs : Bytes) : (sendTrace bs).length = 2 + 40 * bs.length := by
  have all (tr : List Event) : tr.countP (fun _ => true) = tr.length := by simp
  rw [← all, countP_sendTrace _ (n := 40) (fun b => by rw [all, length_byteTrace])]
  rfl

theorem countHolds_sendTrace (bs : Bytes) : countHolds .bit (sendTrace bs) = 2 * (8 * bs.length) := by
  have perByte (b : Byte) : (byteTrace b).countP (· == .wait .bit) = 16 := rfl
  rw [countHolds, List.count, countP_sendTrace _ perByte, ← Nat.mul_assoc]
  exact Nat.zero_add _

theorem risingEdges_append (c : Bool) (xs ys : List Event) :
    risingEdges c (xs ++ ys) = risingEdges c xs + risingEdges (levelAfter .clk c xs) ys := by
  induction xs generalizing c with
  | nil => simp [risingEdges, levelAfter]
  | cons e xs ih =>
    cases e with
    | wait t => simp [risingEdges, levelAfter, ih]
    | set l v => cases l <;> simp [risingEdges, levelAfter, ih, Nat.add_assoc]

theorem risingEdges_bytes (c : Bool) (bs : Bytes) : risingEdges c (bs.flatMap byteTrace) = 8 * bs.length := by
  have perByte (c : Bool) (b : Byte) : risingEdges c (byteTrace b) = 8 := by
    simp [byteTrace, bitsOf, bitCell, risingEdges]
  induction bs generalizing c with
  | nil => rfl
  | cons b bs ih => rw [List.flatMap_cons, risingEdges_append, perByte, ih, List.length_cons, Nat.mul_succ, Nat.add_comm]

/-- R120: eight rising edges a byte, from either level of CLK. -/
theorem risingEdges_sendTrace (c : Bool) (bs : Bytes) : risingEdges c (sendTrace bs) = 8 * bs.length := by
  simp [sendTrace, risingEdges, risingEdges_append, risingEdges_bytes]

/-- Settles O13: each count is per byte, and the reset pulse is one fixed list. -/
theorem transportCounts : Obligations.TransportCounts := by
  constructor
  case left =>
    intro bs
    refine ⟨length_sendTrace bs, countP_sendTrace _ (n := 0) (fun _ => rfl) bs |>.trans (by simp), ?_,
      countHolds_sendTrace bs, fun c => risingEdges_sendTrace c bs, ?_⟩
    · rw [countP_sendTrace _ (n := 24) (fun _ => rfl), ← Nat.mul_assoc]
      exact Nat.zero_add _
    · rw [minTime, countHolds_sendTrace, ← Nat.mul_assoc]
      rfl
  case right => exact fun _ => ⟨rfl, rfl, rfl⟩

/-! ## The transport law -/

/-- The observer after more events. -/
theorem receive_append (t u : List Event) : receive (t ++ u) = u.foldl Receiver.see (receive t) := List.foldl_append

/-- R118: the observer's chip-select is the level of the line. -/
theorem foldl_see_cs (t : List Event) (r : Receiver) : (t.foldl Receiver.see r).cs = levelAfter .cs r.cs t := by
  induction t generalizing r with
  | nil => rfl
  | cons e t ih =>
    rw [List.foldl_cons, ih]
    cases e with
    | wait h => rfl
    | set l v =>
      cases l with
      | cs => cases v <;> cases h : r.cs <;> simp [Receiver.see, levelAfter, h]
      | clk => cases v <;> simp [Receiver.see, levelAfter, apply_ite]
      | data | rst => rfl

theorem receive_cs (t : List Event) : (receive t).cs = levelAfter .cs true t := foldl_see_cs t Receiver.init

/-- R111, R118: inside a frame a bit cell is one received bit. -/
theorem foldl_see_bitCell (b : Bool) {r : Receiver} (inside : r.cs = false) :
    (bitCell b).foldl Receiver.see r = { r with clk := true, data := b, bits := r.bits ++ [b] } := by
  simp [bitCell, Receiver.see, inside]

theorem foldl_see_bitCells (l : List Bool) {r : Receiver} (inside : r.cs = false) :
    ∃ k d, (l.flatMap bitCell).foldl Receiver.see r = { r with clk := k, data := d, bits := r.bits ++ l } := by
  induction l generalizing r with
  | nil => exact ⟨r.clk, r.data, by simp⟩
  | cons b l ih =>
    rw [List.flatMap_cons, List.foldl_append, foldl_see_bitCell b inside]
    obtain ⟨k, d, e⟩ := ih (r := { r with clk := true, data := b, bits := r.bits ++ [b] }) inside
    exact ⟨k, d, by rw [e, List.append_assoc]; rfl⟩

/-- R55, R118: grouping the bits sent gives the bytes sent. -/
theorem groupBits_flatMap_bitsOf (bs : Bytes) : groupBits (bs.flatMap bitsOf) = some bs := by
  induction bs with
  | nil => rfl
  | cons b bs ih =>
    simp only [List.flatMap_cons, bitsOf, List.cons_append, List.nil_append, groupBits] at ih ⊢
    rw [ih, Option.map_some, packByte_getLsbD]

/-- R118, R119: to an observer outside a frame, a frame is one more frame received, exactly its bytes. -/
theorem foldl_see_sendTrace (bs : Bytes) {r : Receiver} (closed : r.cs = true) :
    ((sendTrace bs).foldl Receiver.see r).got = r.got ++ [some bs] := by
  have cells : bs.flatMap byteTrace = (bs.flatMap bitsOf).flatMap bitCell := by
    rw [List.flatMap_assoc]
    rfl
  obtain ⟨k, d, e⟩ := foldl_see_bitCells (bs.flatMap bitsOf) (r := r.see (.set .cs false)) (by simp [Receiver.see, closed])
  rw [sendTrace, List.foldl_cons, List.foldl_append, cells, e]
  simp [Receiver.see, closed, groupBits_flatMap_bitsOf]

theorem framesOf_append_sendTrace {t : List Event} (closed : (receive t).cs = true) (bs : Bytes) :
    framesOf (t ++ sendTrace bs) = framesOf t ++ [some bs] := by
  rw [framesOf, receive_append]
  exact foldl_see_sendTrace bs closed

/-- Settles O14: the observer is outside a frame exactly when CS is at 1. -/
theorem transportLaw : Obligations.TransportLaw := by
  intro t bs closed
  exact ⟨framesOf_append_sendTrace ((receive_cs t).trans closed) bs, risingEdges_sendTrace _ bs⟩

/-! ## Wire equivalence -/

/-- The observer's levels are those of the lines it tracks. -/
def Tracks (r : Receiver) (lv : Line → Bool) : Prop := r.cs = lv .cs ∧ r.clk = lv .clk ∧ r.data = lv .data

/-- R118: a set to the level that a line has is no edge, and the observer sees nothing. -/
theorem see_of_level {r : Receiver} {lv : Line → Bool} (tracks : Tracks r lv) (l : Line) :
    r.see (.set l (lv l)) = r := by
  obtain ⟨cs, clk, data, bits, got⟩ := r
  obtain ⟨rfl, rfl, rfl⟩ := tracks
  cases l with
  | cs => cases h : lv .cs <;> simp [Receiver.see]
  | clk => cases h : lv .clk <;> simp [Receiver.see]
  | data | rst => rfl

/-- The levels after one set. -/
theorem tracks_see {r : Receiver} {lv : Line → Bool} (tracks : Tracks r lv) (l : Line) (v : Bool) :
    Tracks (r.see (.set l v)) (fun x => if x = l then v else lv x) := by
  obtain ⟨cs, clk, data, bits, got⟩ := r
  obtain ⟨rfl, rfl, rfl⟩ := tracks
  cases l with
  | cs => cases v <;> cases h : lv .cs <;> simp [Receiver.see, Tracks]
  | clk => cases v <;> simp [Receiver.see, Tracks, apply_ite]
  | data | rst => simp [Receiver.see, Tracks]

/-- R10, R118: the observer sees the changes of level and nothing else of a trace. -/
theorem foldl_see_eq_levelChanges (t : List Event) {r : Receiver} {lv : Line → Bool} (tracks : Tracks r lv) :
    t.foldl Receiver.see r = (levelChanges lv t).foldl (fun r c => r.see (.set c.1 c.2)) r := by
  induction t generalizing r lv with
  | nil => rfl
  | cons e t ih =>
    cases e with
    | wait h => exact ih tracks
    | set l v =>
      rw [levelChanges, List.foldl_cons]
      split
      next same => rw [← same, see_of_level tracks l, ih tracks]
      next => exact ih (tracks_see tracks l v)

/-- Settles O15: the frames are a function of the changes of level. -/
theorem wireEquivalentTracesHaveTheSameFrames : Obligations.WireEquivalentTracesHaveTheSameFrames := by
  intro t u equivalent
  have atReset : Tracks Receiver.init resetLevels := ⟨rfl, rfl, rfl⟩
  have fromChanges (t : List Event) := foldl_see_eq_levelChanges t atReset
  rw [framesOf, framesOf, receive, receive, fromChanges t, fromChanges u, equivalent]

end Sys2Proof.Machine
end

section
/-! PROOFS. What carrying out a plan does to every field of the state, what a step can be, and what each small step leaves alone. -/

namespace Sys2Proof.Machine

/-! ## The effect of a plan, field by field -/

/-- The events that a plan performs (R110, R115, R185, R205). -/
def Plan.events : Plan → List Event
  | .frames fs => fs.flatMap sendTrace
  | .pulse => pulseTrace Config.rstActive
  | .reject _ => []
  | .nothing => []
  | .store _ _ _ => []

/-- The response that a plan ends with (R27). -/
def Plan.response : Plan → Response
  | .reject code => .invalid code
  | .frames _ => .ok
  | .pulse => .ok
  | .nothing => .ok
  | .store _ _ _ => .ok

/-- The transmit queue that a plan leaves: the last frame sent (R25). -/
def Plan.queue (old : Bytes) : Plan → Bytes
  | .frames fs => fs.getLast?.getD old
  | _ => old

/-- The contexts that a plan leaves (R31). -/
def Plan.contexts (s : State) : Plan → Vector Context Config.nseg
  | .store h _ c => (s.bind h c).ctxs
  | _ => s.ctxs

/-- The buffers that a plan leaves (R51). -/
def Plan.buffers (s : State) : Plan → Memory
  | .store h ws _ => (s.writeBuf h ws).segbuf
  | _ => s.segbuf

/-- FAULT after a response (R26, R205). -/
def Response.fault (old : Bool) : Response → Bool
  | .ok => old
  | .invalid _ => true

/-- ERRCODE after a response (R26, R205). -/
def Response.errcode (old : BitVec 5) : Response → BitVec 5
  | .ok => old
  | .invalid code => errBits code

/-- Frames in sequence are their events in sequence, the queue holding the last. -/
theorem foldl_sendFrame_eq (s : State) (fs : List Bytes) :
    fs.foldl State.sendFrame s = ({ s with txq := fs.getLast?.getD s.txq } : State).emit (fs.flatMap sendTrace) := by
  induction fs generalizing s with
  | nil => rfl
  | cons bs fs ih =>
    rw [List.foldl_cons, ih, List.flatMap_cons, State.sendFrame, State.emit_eq, State.emit_eq, State.emit_eq]
    simp [levelAfter_append, Function.comp_def, List.getLast?_cons]

/-- Everything that carrying out a plan does. -/
theorem carryOut_eq (s : State) (p : Plan) :
    s.carryOut p =
      { s with
        cs := levelAfter .cs s.cs p.events
        clk := levelAfter .clk s.clk p.events
        data := levelAfter .data s.data p.events
        rst := s.rst.map fun v => levelAfter .rst v p.events
        seq := .idle
        txq := p.queue s.txq
        busy := false
        fault := p.response.fault s.fault
        errcode := p.response.errcode s.errcode
        resp := some p.response
        ctxs := p.contexts s
        segbuf := p.buffers s
        trace := s.trace ++ p.events } := by
  cases p with
  | reject code => simp [carryOut_reject, State.raise_eq, Plan.events, levelAfter, Plan.response, Response.fault,
      Response.errcode, Plan.queue, Plan.contexts, Plan.buffers]
  | frames fs =>
    rw [carryOut_frames, foldl_sendFrame_eq, State.emit_eq]
    rfl
  | pulse =>
    rw [carryOut_pulse, State.emit_eq]
    rfl
  | nothing =>
    simp [carryOut_nothing, State.respond, Plan.events, levelAfter, Plan.response, Response.fault,
      Response.errcode, Plan.queue, Plan.contexts, Plan.buffers]
  | store h ws c =>
    rw [carryOut_store, State.writeBuf_eq]
    cases c <;> simp [State.bind, State.respond, Plan.events, levelAfter, Plan.response, Response.fault,
      Response.errcode, Plan.queue, Plan.contexts, Plan.buffers]

variable (s : State) (p : Plan)

@[simp] theorem carryOut_cs : (s.carryOut p).cs = levelAfter .cs s.cs p.events := by rw [carryOut_eq]
@[simp] theorem carryOut_clk : (s.carryOut p).clk = levelAfter .clk s.clk p.events := by rw [carryOut_eq]
@[simp] theorem carryOut_data : (s.carryOut p).data = levelAfter .data s.data p.events := by rw [carryOut_eq]
@[simp] theorem carryOut_rst : (s.carryOut p).rst = s.rst.map fun v => levelAfter .rst v p.events := by rw [carryOut_eq]
@[simp] theorem carryOut_seq : (s.carryOut p).seq = .idle := by rw [carryOut_eq]
@[simp] theorem carryOut_busy : (s.carryOut p).busy = false := by rw [carryOut_eq]
@[simp] theorem carryOut_fault : (s.carryOut p).fault = p.response.fault s.fault := by rw [carryOut_eq]
@[simp] theorem carryOut_errcode : (s.carryOut p).errcode = p.response.errcode s.errcode := by rw [carryOut_eq]
@[simp] theorem carryOut_resp : (s.carryOut p).resp = some p.response := by rw [carryOut_eq]
@[simp] theorem carryOut_ctxs : (s.carryOut p).ctxs = p.contexts s := by rw [carryOut_eq]
@[simp] theorem carryOut_segbuf : (s.carryOut p).segbuf = p.buffers s := by rw [carryOut_eq]
@[simp] theorem carryOut_trace : (s.carryOut p).trace = s.trace ++ p.events := by rw [carryOut_eq]
@[simp] theorem carryOut_host : (s.carryOut p).host = s.host := by rw [carryOut_eq]

variable {s p}

theorem Plan.response_eq_invalid_iff {code : ErrCode} : p.response = .invalid code ↔ p = .reject code := by
  cases p <;> simp [Plan.response]

/-! ## The plans that requests have -/

/-- Which plan a request can have in a state: the exception, one frame whose bytes are the operands', the reset pulse or no
event, a store in the named context, or the three frames of the named context. -/
inductive PlanCase (s : State) : Instr → Plan → Prop where
  | reject (i : Instr) (code : ErrCode) : PlanCase s i (.reject code)
  | frame {i : Instr} (bs : Bytes) (notUpdate : ∀ r, (i.onto r).op ≠ 10#4) : PlanCase s i (.frames [bs])
  | pulse (line : Config.hasRst = true) : PlanCase s .creset .pulse
  | nothing : PlanCase s .creset .nothing
  | attach (h : Fin Config.nseg) {d slot : Nat} (digit : d ≤ 16) (low : 144 ≤ slot) (high : slot ≤ 159) :
      PlanCase s (.segAttach h d slot)
        (.store h (attachWrites slot) (some ⟨true, BitVec.ofNat 5 d, BitVec.ofNat 8 slot⟩))
  | set (h : Fin Config.nseg) {j : Nat} (v : Nat) (index : j ≤ 34) :
      PlanCase s (.segSet h j v) (.store h [(segByte j, segUpdateByte (s.memRead ⟨h, segByte j⟩) j v)] none)
  | update (h : Fin Config.nseg) : PlanCase s (.segUpdate h) (.frames (s.updateFrames h))

/-- A check before a plan may only reject. -/
theorem planCase_rejectIf {i : Instr} (bad : Bool) (code : ErrCode) (plan : PlanCase s i p) :
    PlanCase s i (rejectIf bad code p) := by
  cases bad
  · exact plan
  · exact .reject i code

/-- Every request has one of these plans. -/
theorem planCase (i : Instr) (s : State) : PlanCase s i (planOf i s) := by
  cases i with
  | blankNormal | blankAllOn | blankAllOff => exact .frame _ fun _ => by simp [Instr.onto]
  | send | dlen | dim | freq => exact planCase_rejectIf _ _ (.frame _ fun _ => by simp [Instr.onto])
  | curs => exact planCase_rejectIf _ _ (planCase_rejectIf _ _ (.frame _ fun _ => by simp [Instr.onto]))
  | defch =>
    exact planCase_rejectIf _ _ (planCase_rejectIf _ _ (planCase_rejectIf _ _ (.frame _ fun _ => by simp [Instr.onto])))
  | creset =>
    rw [planOf, planCreset]
    split
    next line => exact .pulse line
    next => exact .nothing
  | segAttach h d slot =>
    rw [planOf]
    rcases planSegAttach_cases h d slot with ⟨code, e⟩ | ⟨hc, digit, low, high, e⟩ <;> rw [e]
    · exact .reject _ code
    · exact .attach ⟨h, hc⟩ digit low high
  | segSet h j v =>
    rw [planOf]
    rcases planSegSet_cases h j v s with ⟨code, e⟩ | ⟨hc, _, index, _, e⟩ <;> rw [e]
    · exact .reject _ code
    · exact .set ⟨h, hc⟩ v index
  | segUpdate h =>
    rw [planOf]
    rcases planSegUpdate_cases h s with ⟨code, e⟩ | ⟨hc, _, e⟩ <;> rw [e]
    · exact .reject _ code
    · exact .update ⟨h, hc⟩

/-! ## What a request and a step can be -/

/-- R27, R85: an idle block accepts a request and carries its plan out. -/
theorem exec_idle {i : Instr} (idle : s.busy = false) : exec i s = .next ((s.accept i).carryOut (planOf i s)) := by
  rw [exec_eq_request, request_idle idle]

/-- R85, R241: a busy block does not accept a request. -/
theorem exec_busy {i : Instr} (busy : s.busy = true) : exec i s = .next s := by
  rw [exec_eq_request, request_busy busy]

/-- R93, R130: an idle block raises the cause code that the decoding of the port gives. -/
theorem step_of_decode_error {r : Request} {rest : List Request} {code : ErrCode} (idle : s.busy = false)
    (host : s.host = r :: rest) (rejects : decode r = .error code) : step s = .next ((s.take r rest).raise code) := by
  simp [step, idle, host, rejects]

theorem step_of_no_request (idle : s.busy = false) (host : s.host = []) : step s = .next s := by
  simp [step, idle, host]

theorem step_of_busy (busy : s.busy = true) : step s = microStep s := by
  simp [step, busy]

/-- What a step that answers a next state can be: a small step, no move, a request of the port run whole, or the exception
that the decoding of the port raises. -/
theorem step_cases {t : State} (run : step s = .next t) :
    (s.busy = true ∧ microStep s = .next t) ∨
      (s.busy = false ∧ ((s.host = [] ∧ t = s) ∨ ∃ r rest, s.host = r :: rest ∧
        ((∃ i, HoldsRequest r i ∧ t = ((s.take r rest).accept i).carryOut (planOf i (s.take r rest))) ∨
          ∃ code, decode r = .error code ∧ t = (s.take r rest).raise code))) := by
  cases busy : s.busy
  case true => exact .inl ⟨rfl, (step_of_busy busy).symm.trans run⟩
  case false =>
    refine .inr ⟨rfl, ?_⟩
    match host : s.host with
    | [] =>
      cases (step_of_no_request busy host).symm.trans run
      exact .inl ⟨rfl, rfl⟩
    | r :: rest =>
      refine .inr ⟨r, rest, rfl, ?_⟩
      rcases decode_cases r with ⟨_, rejects⟩ | ⟨_, _, rejects⟩ | ⟨i, decodes, fits, driven⟩
      · cases (step_of_decode_error busy host rejects).symm.trans run
        exact .inr ⟨_, rejects, rfl⟩
      · cases (step_of_decode_error busy host rejects).symm.trans run
        exact .inr ⟨_, rejects, rfl⟩
      · cases (step_eq_exec_take busy host decodes).symm.trans run |>.symm.trans (exec_idle busy)
        exact .inl ⟨i, ⟨decodes, fits, driven⟩, rfl⟩

/-! ## What no small step touches -/

/-- R112, R116: a small step performs events and moves the sequencer, or ends the request with `OK`. -/
theorem microStep_frame {t : State} (run : microStep s = .next t) :
    ∃ evs, (∃ q bs, t = { s.emit evs with seq := .run q, txq := bs }) ∨ t = (s.emit evs).respond .ok := by
  match hs : s.seq with
  | .idle => simp [microStep, hs] at run
  | .run ⟨f, k, i, ph⟩ =>
    cases ph with
    | csAssert =>
      cases (microStep_csAssert hs).symm.trans run
      exact ⟨[.set .cs false], .inl ⟨_, _, rfl⟩⟩
    | setup =>
      match hb : s.txq[k]? with
      | none => simp [microStep, hs, hb] at run
      | some b =>
        cases (microStep_setup hs hb).symm.trans run
        exact ⟨[.set .clk false, .set .data _], .inl ⟨_, _, rfl⟩⟩
    | holdLow =>
      cases (microStep_holdLow hs).symm.trans run
      exact ⟨[.wait .bit], .inl ⟨_, _, rfl⟩⟩
    | rise =>
      cases (microStep_rise hs).symm.trans run
      exact ⟨[.set .clk true], .inl ⟨_, _, rfl⟩⟩
    | holdHigh =>
      cases (microStep_holdHigh hs).symm.trans run
      exact ⟨[.wait .bit], .inl ⟨_, _, rfl⟩⟩
    | csRelease =>
      match hn : s.nextFrame f with
      | none =>
        cases (microStep_csRelease_last hs hn).symm.trans run
        exact ⟨[.set .cs true], .inr rfl⟩
      | some bs =>
        cases (microStep_csRelease_next hs hn).symm.trans run
        exact ⟨[.set .cs true], .inl ⟨_, _, rfl⟩⟩
    | rCs =>
      cases (microStep_rCs hs).symm.trans run
      exact ⟨[.set .cs true], .inl ⟨_, _, rfl⟩⟩
    | rPre =>
      cases (microStep_rPre hs).symm.trans run
      exact ⟨[.set .rst _], .inl ⟨_, _, rfl⟩⟩
    | rPulse =>
      cases (microStep_rPulse hs).symm.trans run
      exact ⟨[.set .rst _, .wait .rst], .inl ⟨_, _, rfl⟩⟩
    | rRecover =>
      cases (microStep_rRecover hs).symm.trans run
      exact ⟨[.set .rst _, .wait .rst], .inr rfl⟩

end Sys2Proof.Machine
end

section
/-! PROOFS. The requests of the serial transport, the command encoder and the character transcoder, whole (R110 to R160). -/

namespace Sys2Proof.Machine

open Sys2Proof.Safety

/-! ## Serial Transport -/

theorem overLimit_eq_false_iff (m : Option Nat) (len : Nat) :
    Config.overLimit m len = false ↔ ∀ b, m = some b → len ≤ b := by
  cases m <;> simp [Config.overLimit]

theorem badBytes_eq_false_iff (bytes : List Nat) : badBytes bytes = false ↔ ∀ b ∈ bytes, b ≤ 255 := by
  simp [badBytes]

/-- Settles O16: the one check of `SEND` separates the exception from the frame. -/
theorem sendTransmitsOneFrame : Obligations.SendTransmitsOneFrame := by
  intro s bytes idle
  have check : (badBytes bytes || Config.overLimit Config.sendMax bytes.length) = false ↔
      (∀ b ∈ bytes, b ≤ 255) ∧ ∀ m, Config.sendMax = some m → bytes.length ≤ m := by
    rw [Bool.or_eq_false_iff, badBytes_eq_false_iff, overLimit_eq_false_iff]
  split
  next good =>
    refine exec_eq_sent idle ?_
    rw [planOf, planSend, check.mpr good, rejectIf_false]
  next bad =>
    refine exec_eq_rejected idle ?_
    rw [planOf, planSend, Bool.of_not_eq_false (mt check.mp bad), rejectIf_true]

/-- Settles O17: where there is a reset line the plan is the pulse, else no event. -/
theorem controllerResetPulse : Obligations.ControllerResetPulse := by
  intro s idle
  rw [exec_idle idle, planOf, planCreset]
  split
  next =>
    rw [carryOut_pulse, State.emit_pulse_eq]
    rfl
  next => rfl

/-! ## Command Encoder -/

/-- Settles O18: `BLANK` has no check but its mode. -/
theorem blankingSendsItsConstant : Obligations.BlankingSendsItsConstant :=
  fun _ idle => ⟨exec_eq_sent idle rfl, exec_eq_sent idle rfl, exec_eq_sent idle rfl⟩

/-- Settles O43: the step of an idle block with a request that decodes. -/
theorem stepRunsTheDecodedRequest : Obligations.StepRunsTheDecodedRequest :=
  fun _ _ _ _ idle host decoded => step_eq_exec_take idle host decoded

theorem holdsRequest_of_decode {r : Request} {i : Instr} (decoded : decode r = .ok i) : HoldsRequest r i :=
  ⟨decoded, requestEncodeOfDecode r i decoded⟩

/-- R85, R152: a request on the port whose plan is one frame; the latch holds the port (R28). -/
theorem step_eq_sent {s : State} {r : Request} {rest : List Request} {i : Instr} {bs : Bytes} (idle : s.busy = false)
    (host : s.host = r :: rest) (decoded : decode r = .ok i) (plan : planOf i (s.take r rest) = .frames [bs]) :
    step s = .next { sent i bs (s.take r rest) with latch := r } := by
  obtain ⟨_, _, driven⟩ := holdsRequest_of_decode decoded
  rw [step_eq_exec_take idle host decoded, exec_eq_sent (s := s.take r rest) idle plan, sent, State.take_latch, driven]

/-- Settles O19: modes 0, 1 and 2 decode to the three blanking requests, any other raises `E_MODE`. -/
theorem blankOnThePort : Obligations.BlankOnThePort := by
  intro s r rest idle host op
  obtain ⟨_, _, normal, allOn, allOff, _⟩ := selectorsChooseTheRequest r
  split
  next bad => exact step_of_decode_error idle host (decode_of_bad_mode op bad)
  next good =>
    have modes : r.a = 0#8 ∨ r.a = 1#8 ∨ r.a = 2#8 := by bv_omega
    rcases modes with mode | mode | mode
    · rw [mode]
      exact step_eq_sent idle host (normal op mode) rfl
    · rw [mode]
      exact step_eq_sent idle host (allOn op mode) rfl
    · rw [mode]
      exact step_eq_sent idle host (allOff op mode) rfl

/-- Settles O20: the one check of `DLEN` separates the exception from the frame. -/
theorem digitLengthResult : Obligations.DigitLengthResult := by
  intro s n idle
  split
  next bad => exact exec_eq_rejected idle (planDlen_of_bad bad)
  next good => exact exec_eq_sent idle ((planDlen_of_good good).trans (by rw [dlenByte, BitVec.zero_or]))

/-- Settles O23: the level fits below the base `0x08`. -/
theorem dimmerResult : Obligations.DimmerResult := by
  intro s v idle
  split
  next bad => exact exec_eq_rejected idle (by simp [planOf, planDim, badDim, bad])
  next good =>
    have byte : ∀ v ≤ 7, dimByte v = BitVec.ofNat 8 (8 + v) := by decide
    exact exec_eq_sent idle (by simp [planOf, planDim, badDim, good, byte v (by omega)])

/-- Settles O24: whatever `OP_FREQ` is, the flag is checked and put beside it. -/
theorem frequencyResult : Obligations.FrequencyResult := by
  intro s f idle
  split
  next bad => exact exec_eq_rejected idle (by simp [planOf, planFreq, badFlag, bad])
  next good => exact exec_eq_sent idle (by simp [planOf, planFreq, badFlag, good, freqByte])

theorem badPos_iff (p : Nat) : badPos p = true ↔ p < 1 ∨ 16 < p := by
  simp [badPos]

/-- R90: neither field of `CURS` carries into its base. -/
theorem cursBytes_eq {p f : Nat} (hp : p ≤ 16) (hf : f ≤ 1) :
    cursBytes p f = [BitVec.ofNat 8 (0xE0 + (p - 1)), BitVec.ofNat 8 (0xF4 + f)] :=
  (by decide : ∀ p ≤ 16, ∀ f ≤ 1, cursBytes p f = [BitVec.ofNat 8 (0xE0 + (p - 1)), BitVec.ofNat 8 (0xF4 + f)])
    p hp f hf

/-- Settles O25: the checks of R150 in their order. -/
theorem cursorResult : Obligations.CursorResult := by
  intro s p f idle
  split
  next bad => exact exec_eq_rejected idle (by rw [planOf, planCurs, (badPos_iff p).mpr bad, rejectIf_true])
  next goodPos =>
  have pos : badPos p = false := Bool.eq_false_iff.mpr (mt (badPos_iff p).mp goodPos)
  split
  next bad => exact exec_eq_rejected idle (by simp [planOf, planCurs, pos, badFlag, bad])
  next good =>
    rw [← cursBytes_eq (by omega) (by omega)]
    exact exec_eq_sent idle (by simp [planOf, planCurs, pos, badFlag, good])

/-! ## Character Transcoder -/

theorem badSlot_iff (slot : Nat) : badSlot slot = true ↔ slot < 144 ∨ 159 < slot := by
  simp [badSlot]

theorem badRows_iff (rows : Rows Nat) : badRows rows = true ↔ ∃ x ∈ rows.toList, 31 < x := by
  simp [badRows]

/-- Settles O26: the checks of R160 in their order. -/
theorem defineCharacterResult : Obligations.DefineCharacterResult := by
  intro s slot nrows rows idle
  split
  next bad => exact exec_eq_rejected idle (by rw [planOf, planDefch, (badSlot_iff slot).mpr bad, rejectIf_true])
  next good =>
  have slotOk : badSlot slot = false := Bool.eq_false_iff.mpr (mt (badSlot_iff slot).mp good)
  split
  next bad => exact exec_eq_rejected idle (by simp [planOf, planDefch, slotOk, badRowCount, bad])
  next good =>
  have countOk : badRowCount nrows = false := by simpa [badRowCount] using good
  split
  next bad =>
    refine exec_eq_rejected idle ?_
    rw [planOf, planDefch, slotOk, countOk, (badRows_iff rows).mpr bad, rejectIf_false, rejectIf_false, rejectIf_true]
  next good =>
    have rowsOk : badRows rows = false := Bool.eq_false_iff.mpr (mt (badRows_iff rows).mp good)
    refine exec_eq_sent idle ?_
    rw [planOf, planDefch, slotOk, countOk, rowsOk, rejectIf_false, rejectIf_false, rejectIf_false]

/-! ## Ports that raise when they are decoded -/

/-- Settles O42: a reserved selector decodes to `E_OP`, and the step takes the exception. -/
theorem reservedSelectorRaises : Obligations.ReservedSelectorRaises :=
  fun _ _ _ idle host reserved => step_of_decode_error idle host (decode_of_reserved reserved)

/-- Settles O45: there is nothing to take. -/
theorem idleBlockHoldsItsState : Obligations.IdleBlockHoldsItsState :=
  fun _ => step_of_no_request

/-- Settles O38: the table of R201, by evaluation. -/
theorem causeCodes : Obligations.CauseCodes := rfl

end Sys2Proof.Machine
end

section
/-! PROOFS. The segment mapper: attach, set and update, whole, and the laws of the segments (R175 to R187). -/

namespace Sys2Proof.Machine

open Sys2Proof.Safety

/-! ## Plans of a context that exists, and of one that does not -/

/-- A request whose plan is a store ends in the state that `settled` describes (R175, R180). -/
theorem exec_eq_settled {i : Instr} {s : State} {h : Fin Config.nseg} {ws : List (Fin Config.bufLen × Byte)}
    {c : Option Context} (idle : s.busy = false) (plan : planOf i s = .store h ws c) :
    exec i s = .next (settled i (s.bind h c).ctxs (s.writeBuf h ws).segbuf s) := by
  rw [exec_idle idle, plan, carryOut_accept_store]
  rfl

theorem planSegAttach_of_ge {h : Nat} (bad : 16 ≤ h) (d slot : Nat) : planSegAttach h d slot = .reject .ctx :=
  dif_neg (Nat.not_lt.mpr bad)

theorem planSegAttach_fin (h : Fin 16) (d slot : Nat) : planSegAttach h d slot =
    (rejectIf (badDigit d) .digit <| rejectIf (badSlot slot) .slot <|
      .store h (attachWrites slot) (some ⟨true, BitVec.ofNat 5 d, BitVec.ofNat 8 slot⟩)) :=
  dif_pos h.isLt

theorem planSegSet_of_ge {h : Nat} (bad : 16 ≤ h) (i v : Nat) (s : State) : planSegSet h i v s = .reject .ctx :=
  dif_neg (Nat.not_lt.mpr bad)

theorem planSegSet_fin (h : Fin 16) (i v : Nat) (s : State) : planSegSet h i v s =
    (rejectIf (!(s.context h).valid) .unattached <| rejectIf (badSegment i) .segidx <| rejectIf (badFlag v) .segval <|
      .store h [(segByte i, segUpdateByte (s.memRead ⟨h, segByte i⟩) i v)] none) :=
  dif_pos h.isLt

theorem planSegUpdate_of_ge {h : Nat} (bad : 16 ≤ h) (s : State) : planSegUpdate h s = .reject .ctx :=
  dif_neg (Nat.not_lt.mpr bad)

theorem planSegUpdate_fin (h : Fin 16) (s : State) : planSegUpdate h s =
    (rejectIf (!(s.context h).valid) .unattached <|
      rejectIf (decide ((s.context h).digit.toNat < Config.posMin)) .pos <| .frames (s.updateFrames h)) :=
  dif_pos h.isLt

/-! ## `SEG.ATTACH` -/

theorem planSegAttach_of_good (h : Fin 16) {d slot : Nat} (digit : d ≤ 16) (low : 144 ≤ slot) (high : slot ≤ 159) :
    planSegAttach h d slot =
      .store h (attachWrites slot) (some ⟨true, BitVec.ofNat 5 d, BitVec.ofNat 8 slot⟩) := by
  have slotOk : badSlot slot = false := Bool.eq_false_iff.mpr (mt (badSlot_iff slot).mp (by omega))
  rw [planSegAttach_fin, slotOk, badDigit, decide_eq_false (Nat.not_lt.mpr digit), rejectIf_false, rejectIf_false]

/-- R175: an accepted attach, whole. -/
theorem exec_segAttach {s : State} (idle : s.busy = false) (h : Fin 16) {d slot : Nat} (digit : d ≤ 16) (low : 144 ≤ slot)
    (high : slot ≤ 159) :
    exec (.segAttach h d slot) s =
      .next (settled (.segAttach h d slot) (s.bind h (some ⟨true, BitVec.ofNat 5 d, BitVec.ofNat 8 slot⟩)).ctxs
        (s.writeBuf h (attachWrites slot)).segbuf s) :=
  exec_eq_settled idle (planSegAttach_of_good h digit low high)

/-- Settles O27: the checks of R175 in their order, then the binding and the blank buffer. -/
theorem attachResult : Obligations.AttachResult := by
  intro s d slot idle
  refine ⟨fun h bad => exec_eq_rejected idle (planSegAttach_of_ge bad d slot), fun h => ⟨?digit, ?slot, ?accepted⟩⟩
  case digit =>
    intro bad
    refine exec_eq_rejected idle ((planSegAttach_fin h d slot).trans ?_)
    rw [badDigit, decide_eq_true bad, rejectIf_true]
  case slot =>
    intro digit bad
    refine exec_eq_rejected idle ((planSegAttach_fin h d slot).trans ?_)
    rw [badDigit, decide_eq_false (Nat.not_lt.mpr digit), (badSlot_iff slot).mpr bad, rejectIf_false, rejectIf_true]
  case accepted =>
    intro digit low high
    exact ⟨_, _, exec_segAttach idle h digit low high, fun h' => s.context_bind h h' _, s.memRead_attach h slot⟩

/-- Settles O28: a segment lies in a column byte, and an attach leaves those 0. -/
theorem attachBlanksEverySegment : Obligations.AttachBlanksEverySegment := by
  intro s t h d slot idle digit low high run
  obtain ⟨cs, m, runs, _, bytes⟩ := ((attachResult s d slot idle).2 h).2.2 digit low high
  cases runs.symm.trans run
  have blank (k : Fin 7) : (settled (.segAttach h d slot) cs m s).memRead ⟨h, k⟩ =
      if k.val = 0 then 0xFC#8 else if k.val = 1 then BitVec.ofNat 8 (slot - 144) else 0x00#8 :=
    (bytes ⟨h, k⟩).trans (if_pos rfl)
  refine ⟨fun j _ => ?_, ?_⟩
  · have column : 2 ≤ (segByte j).val := Nat.le_add_right 2 _
    rw [State.seg, blank, if_neg (by omega), if_neg (by omega), BitVec.getLsbD_zero]
  · rw [State.bufBytes, blank, blank, blank, blank, blank, blank, blank]
    rfl

/-! ## `SEG.SET` -/

theorem planSegSet_of_good {s : State} {h : Fin 16} (valid : (s.context h).valid = true) {i v : Nat} (index : i ≤ 34)
    (value : v ≤ 1) :
    planSegSet h i v s = .store h [(segByte i, segUpdateByte (s.memRead ⟨h, segByte i⟩) i v)] none := by
  rw [planSegSet_fin, valid, badSegment, decide_eq_false (Nat.not_le.mpr (Nat.lt_succ_of_le index)), badFlag,
    decide_eq_false (Nat.not_lt.mpr value)]
  rfl

/-- R180: an accepted set, whole. -/
theorem exec_segSet {s : State} (idle : s.busy = false) {h : Fin 16} (valid : (s.context h).valid = true) {i v : Nat}
    (index : i ≤ 34) (value : v ≤ 1) :
    exec (.segSet h i v) s =
      .next (settled (.segSet h i v) s.ctxs
        (s.memWrite ⟨h, segByte i⟩ (segUpdateByte (s.memRead ⟨h, segByte i⟩) i v)).segbuf s) :=
  exec_eq_settled (i := .segSet h i v) idle (planSegSet_of_good valid index value)

/-- Settles O29: the checks of R180 in their order, then one byte written. -/
theorem setSegmentResult : Obligations.SetSegmentResult := by
  intro s i v idle
  refine ⟨fun h bad => exec_eq_rejected idle (planSegSet_of_ge bad i v s),
    fun h => ⟨?unattached, ?index, ?value, ?accepted⟩⟩
  case unattached =>
    intro invalid
    refine exec_eq_rejected idle ((planSegSet_fin h i v s).trans ?_)
    rw [invalid]
    rfl
  case index =>
    intro valid bad
    refine exec_eq_rejected idle ((planSegSet_fin h i v s).trans ?_)
    rw [valid, badSegment, decide_eq_true (p := Config.nsegs ≤ i) bad]
    rfl
  case value =>
    intro valid index bad
    refine exec_eq_rejected idle ((planSegSet_fin h i v s).trans ?_)
    rw [valid, badSegment, decide_eq_false (Nat.not_le.mpr (Nat.lt_succ_of_le index)), badFlag, decide_eq_true bad]
    rfl
  case accepted =>
    intro valid index value
    refine ⟨_, exec_segSet idle valid index value, fun a => ?_⟩
    obtain ⟨ah, ak⟩ := a
    change (s.memWrite _ _).memRead _ = _
    rw [State.memRead_memWrite]
    by_cases here : (⟨h, segByte i⟩ : BufAddr) = ⟨ah, ak⟩
    · cases here
      rw [if_pos rfl, if_pos ⟨rfl, rfl⟩]
      rfl
    · rw [if_neg here, if_neg]
      rintro ⟨rfl, byte⟩
      exact here (congrArg (BufAddr.mk ah) (Fin.ext byte.symm))

/-! ## The laws of `SEG.SET` -/

/-- Settles O30: byte and bit are the remainder and the quotient by 5. -/
theorem segmentsDoNotAlias : Obligations.SegmentsDoNotAlias := by
  constructor
  case left =>
    intro i hi
    simp only [segByte, segBit]
    omega
  case right =>
    intro i j hi hj byte bit
    have remainder : 2 + i % 5 = 2 + j % 5 := congrArg Fin.val byte
    simp only [segBit] at bit
    omega

/-- R98: the mask of a segment is its one bit. -/
theorem getLsbD_segMask (i k : Nat) : (segMask i).getLsbD k = decide (k = segBit i) := by
  have inByte : segBit i < 8 := by simp only [segBit]; omega
  have mask : segMask i = BitVec.twoPow 8 (segBit i) := rfl
  rw [mask, BitVec.getLsbD_twoPow, decide_eq_true inByte, Bool.true_and, decide_eq_decide]
  exact eq_comm

/-- R180: the byte written has the segment's bit as set and every other bit as before. -/
theorem getLsbD_segUpdateByte (old : Byte) (i v k : Nat) :
    (segUpdateByte old i v).getLsbD k = if k = segBit i then decide (v = 1) else old.getLsbD k := by
  have ones : (0xFF#8).getLsbD k = decide (k < 8) := by
    rw [show 0xFF#8 = BitVec.allOnes 8 from rfl, BitVec.getLsbD_allOnes]
  have inByte : segBit i < 8 := by simp only [segBit]; omega
  unfold segUpdateByte
  split
  next on =>
    rw [BitVec.getLsbD_or, getLsbD_segMask]
    by_cases here : k = segBit i <;> simp [here, on]
  next off =>
    rw [BitVec.getLsbD_and, BitVec.getLsbD_xor, getLsbD_segMask, ones]
    by_cases here : k = segBit i
    · simp [here, off, inByte]
    · by_cases hk : k < 8
      · simp [here, hk]
      · simp [here, hk, BitVec.getLsbD_of_ge _ _ (Nat.not_lt.mp hk)]

/-- What an accepted set leaves, bit by bit of SEGBUF (R182). -/
structure AfterSet (s t : State) (h : Fin 16) (i v : Nat) : Prop where
  idle : t.busy = false
  context : ∀ h', t.context h' = s.context h'
  bit : ∀ a k, (t.memRead a).getLsbD k =
    if a = ⟨h, segByte i⟩ ∧ k = segBit i then decide (v = 1) else (s.memRead a).getLsbD k

theorem exec_segSet_afterSet {s : State} (idle : s.busy = false) {h : Fin 16} (valid : (s.context h).valid = true)
    {i v : Nat} (index : i ≤ 34) (value : v ≤ 1) : ∃ t, exec (.segSet h i v) s = .next t ∧ AfterSet s t h i v := by
  refine ⟨_, exec_segSet idle valid index value, rfl, fun _ => rfl, fun a k => ?_⟩
  change ((s.memWrite _ _).memRead a).getLsbD k = _
  rw [State.memRead_memWrite]
  by_cases here : (⟨h, segByte i⟩ : BufAddr) = a
  · rw [if_pos here, getLsbD_segUpdateByte, here]
    simp
  · rw [if_neg here, if_neg fun e => here e.1.symm]

theorem AfterSet.of_exec {s t : State} (idle : s.busy = false) {h : Fin 16} (valid : (s.context h).valid = true)
    {i v : Nat} (index : i ≤ 34) (value : v ≤ 1) (run : exec (.segSet h i v) s = .next t) : AfterSet s t h i v := by
  obtain ⟨u, runs, after⟩ := exec_segSet_afterSet idle valid index value
  cases runs.symm.trans run
  exact after

/-- Settles O31: the segments are different bits, and one bit changes. -/
theorem setChangesOneSegment : Obligations.SetChangesOneSegment := by
  intro s t h i v idle valid index value run
  have after := AfterSet.of_exec idle valid index value run
  refine ⟨(after.bit _ _).trans (if_pos ⟨rfl, rfl⟩), fun j hj other => (after.bit _ _).trans (if_neg ?_)⟩
  rintro ⟨address, bit⟩
  exact other (segmentsDoNotAlias.2 j i hj index (BufAddr.mk.inj address).2 bit)

/-- Settles O32: bit by bit, the last value written at the segment is what it reads. -/
theorem setInverseAndIdempotent : Obligations.SetInverseAndIdempotent := by
  intro s t h i v idle valid index value run
  have first := AfterSet.of_exec idle valid index value run
  have stillValid : (t.context h).valid = true := (first.context h).symm ▸ valid
  constructor
  case left =>
    obtain ⟨u, runs, second⟩ := exec_segSet_afterSet first.idle stillValid index value
    refine ⟨u, runs, fun a => BitVec.eq_of_getLsbD_eq fun k _ => ?_⟩
    rw [second.bit, first.bit]
    split <;> rfl
  case right =>
    intro on off
    obtain ⟨u, runs, second⟩ := exec_segSet_afterSet first.idle stillValid index (Nat.zero_le 1)
    have restored (a : BufAddr) : u.memRead a = s.memRead a := BitVec.eq_of_getLsbD_eq fun k _ => by
      rw [second.bit, first.bit]
      split
      next here =>
        obtain ⟨rfl, rfl⟩ := here
        exact off.symm
      next => rfl
    exact ⟨u, runs, by simp only [State.bufBytes, restored], restored⟩

/-- Settles O33: two sets of different segments write different bits. -/
theorem setsCommute : Obligations.SetsCommute := by
  intro s t u h h' i j v w idle valid valid' hi hj hv hw differ run run'
  have one := AfterSet.of_exec idle valid hi hv run
  have other := AfterSet.of_exec idle valid' hj hw run'
  obtain ⟨t', runs, then_other⟩ := exec_segSet_afterSet one.idle ((one.context h').symm ▸ valid') hj hw
  obtain ⟨u', runs', then_one⟩ := exec_segSet_afterSet other.idle ((other.context h).symm ▸ valid) hi hv
  refine ⟨t', u', runs, runs', fun a => BitVec.eq_of_getLsbD_eq fun k _ => ?_⟩
  rw [then_other.bit, then_one.bit, one.bit, other.bit]
  by_cases atOther : a = ⟨h', segByte j⟩ ∧ k = segBit j
  · rw [if_pos atOther, if_pos atOther, if_neg]
    rintro ⟨address, bit⟩
    obtain ⟨context, byte⟩ := BufAddr.mk.inj (address.symm.trans atOther.1)
    exact differ (Prod.ext context (segmentsDoNotAlias.2 i j hi hj byte (bit.symm.trans atOther.2)))
  · rw [if_neg atOther, if_neg atOther]

/-! ## `SEG.UPDATE` -/

/-- R185: the three frames. -/
theorem updateFrames_eq (s : State) (h : Fin 16) : s.updateFrames h =
    [s.bufBytes h, [0xE0#8 ||| BitVec.ofNat 8 ((s.context h).digit.toNat - 1), 0xF4#8], [(s.context h).slot]] := rfl

theorem planSegUpdate_of_good {s : State} {h : Fin 16} (valid : (s.context h).valid = true)
    (digit : (s.context h).digit ≠ 0#5) : planSegUpdate h s = .frames (s.updateFrames h) := by
  have positive : ¬ (s.context h).digit.toNat < 1 := by bv_omega
  rw [planSegUpdate_fin, valid, decide_eq_false positive]
  rfl

/-- Settles O35: the checks of R185 in their order, then the three frames. -/
theorem updateResult : Obligations.UpdateResult := by
  intro s idle
  refine ⟨fun h bad => exec_eq_rejected idle (planSegUpdate_of_ge bad s), fun h => ⟨?unattached, ?digit, ?accepted⟩⟩
  case unattached =>
    intro invalid
    refine exec_eq_rejected idle ((planSegUpdate_fin h s).trans ?_)
    rw [invalid]
    rfl
  case digit =>
    intro valid zero
    refine exec_eq_rejected idle ((planSegUpdate_fin h s).trans ?_)
    rw [valid, zero]
    rfl
  case accepted =>
    intro valid digit
    have plan : planOf (.segUpdate h) s = .frames (s.updateFrames h) := planSegUpdate_of_good valid digit
    rw [exec_idle idle, plan, updateFrames_eq, carryOut_eq]
    simp [sent, Plan.events, Plan.queue, Plan.response, Response.fault, Response.errcode, Plan.contexts, Plan.buffers,
      levelAfter_append, levelAfter_sendTrace_cs, levelAfter_sendTrace_clk, levelAfter_sendTrace_data,
      levelAfter_sendTrace_rst, State.bufBytes, lastBit]

/-- Settles O36: the counts of R120 and the transport law, three times. -/
theorem updateCountsAndFrames : Obligations.UpdateCountsAndFrames := by
  intro s t h idle valid digit high run
  have whole := ((updateResult s idle).2 h).2.2 valid digit
  cases whole.symm.trans run
  refine ⟨_, rfl, rfl, ?length, fun c => ?edges, ?frames⟩
  case length => simp [length_sendTrace, State.bufBytes]
  case edges => simp [risingEdges_append, risingEdges_sendTrace, State.bufBytes]
  case frames =>
    have closed (u : List Event) (bs : Bytes) : (receive (u ++ sendTrace bs)).cs = true := by
      rw [receive_cs, levelAfter_append, levelAfter_sendTrace_cs]
    simp only [← List.append_assoc]
    rw [framesOf_append_sendTrace (closed _ _), framesOf_append_sendTrace (closed _ _),
      framesOf_append_sendTrace ((receive_cs _).trans high)]
    simp [State.bufBytes]

/-! ## The buffer and the bitmap of its segments -/

/-- R184: segment `5 r + c` is bit `7 - r` of column byte `c`, so the bitmap is the inverse transpose of the columns. -/
theorem segRows_eq_rowsOfColumns (s : State) (h : Fin 16) :
    s.segRows h = rowsOfColumns (s.memRead ⟨h, 2⟩) (s.memRead ⟨h, 3⟩) (s.memRead ⟨h, 4⟩) (s.memRead ⟨h, 5⟩)
      (s.memRead ⟨h, 6⟩) := rfl

theorem rowOfColumns_le (c0 c1 c2 c3 c4 : Byte) (r : Nat) : rowOfColumns c0 c1 c2 c3 c4 r ≤ 31 := by
  have bound : ∀ b4 b3 b2 b1 b0, ofFiveBits b4 b3 b2 b1 b0 ≤ 31 := by decide
  exact bound ..

theorem rowsOfColumns_le (c0 c1 c2 c3 c4 : Byte) : ∀ x ∈ (rowsOfColumns c0 c1 c2 c3 c4).toList, x ≤ 31 := by
  simp [rowsOfColumns, Rows.toList, rowOfColumns_le]

/-- R32, R161: a buffer in the format of R83 is the transcoding of the bitmap that its columns decode to. -/
theorem bufBytes_eq_transcode {s : State} {h : Fin 16} (sound : ContextsSound s) (valid : (s.context h).valid = true) :
    s.bufBytes h = transcode (s.context h).slot.toNat (s.segRows h) := by
  obtain ⟨_, _, contexts⟩ := sound
  obtain ⟨_, _, _, opcode, offset, clear⟩ := contexts h valid
  have columns := transcode_rowsOfColumns (s.context h).slot.toNat (c0 := s.memRead ⟨h, 2⟩) (c1 := s.memRead ⟨h, 3⟩)
    (c2 := s.memRead ⟨h, 4⟩) (c3 := s.memRead ⟨h, 5⟩) (c4 := s.memRead ⟨h, 6⟩)
    (by simpa using ⟨clear 2 (by decide), clear 3 (by decide), clear 4 (by decide), clear 5 (by decide), clear 6 (by decide)⟩)
  rw [State.bufBytes, opcode, offset, ← columns]
  rfl

/-- Settles O37: the bitmap of the segments is the inverse transpose of the columns. -/
theorem bufferIsTheBitmapOfItsSegments : Obligations.BufferIsTheBitmapOfItsSegments := by
  intro s h sound valid
  have buffer := bufBytes_eq_transcode sound valid
  have rows : ∀ x ∈ (s.segRows h).toList, x ≤ 31 := segRows_eq_rowsOfColumns s h ▸ rowsOfColumns_le _ _ _ _ _
  obtain ⟨_, _, contexts⟩ := sound
  obtain ⟨_, low, high, _⟩ := contexts h valid
  refine ⟨buffer, (segRows_eq_rowsOfColumns s h).symm, rows, fun t idle => ?_⟩
  refine ⟨_, defineCharacterResult t _ 7 (s.segRows h) idle, ?_⟩
  rw [if_neg (by omega), if_neg (by simp), if_neg (by simpa using rows), buffer]
  rfl

end Sys2Proof.Machine
end

section
/-! PROOFS. The exception, the response, and what each request and each step leaves alone (R22, R26, R27, R32 to R34, R205 to
R208, R241). -/

namespace Sys2Proof.Machine

open Sys2Proof.Safety

variable {s t : State}

/-! ## The exception and the response -/

/-- R205: only the exception answers `INVALID(code)`, and it is the whole plan then. -/
theorem planOf_eq_reject_of_resp {i : Instr} {code : ErrCode}
    (resp : ((s.accept i).carryOut (planOf i s)).resp = some (.invalid code)) : planOf i s = .reject code := by
  rw [carryOut_resp, Option.some.injEq] at resp
  exact Plan.response_eq_invalid_iff.mp resp

/-- Settles O39: a plan that answers `INVALID(code)` is the exception, and so is a port that does not decode. -/
theorem exceptionIsPrecise : Obligations.ExceptionIsPrecise := by
  constructor
  case left =>
    intro i s t code idle run resp
    cases (exec_idle idle).symm.trans run
    rw [planOf_eq_reject_of_resp resp]
    rfl
  case right =>
    intro s t r rest code idle host run resp
    rcases step_cases run with ⟨busy, _⟩ | ⟨_, ⟨empty, _⟩ | ⟨r', rest', host', answer⟩⟩
    · cases busy.symm.trans idle
    · cases host.symm.trans empty
    · cases host.symm.trans host'
      rcases answer with ⟨i, ⟨_, _, driven⟩, rfl⟩ | ⟨code', _, rfl⟩
      · rw [planOf_eq_reject_of_resp resp, carryOut_reject, State.raise_eq, State.accept, State.take_latch, driven]
        rfl
      · cases resp
        rfl

/-- Settles O40: every plan ends with its response. -/
theorem everyRequestIsAnswered : Obligations.EveryRequestIsAnswered := by
  intro i s idle
  refine ⟨_, (planOf i s).response, exec_idle idle, carryOut_resp _ _, carryOut_busy _ _, carryOut_seq _ _, carryOut_host _ _,
    fun ok => ?_⟩
  rw [carryOut_fault, carryOut_errcode, ok]
  exact ⟨rfl, rfl⟩

/-- FAULT and ERRCODE after a response, from the values before (R26, R205, R208). -/
theorem flags_carryOut (s : State) (p : Plan) :
    (s.fault = true → (s.carryOut p).fault = true) ∧
      (((s.carryOut p).fault = s.fault ∧ (s.carryOut p).errcode = s.errcode) ∨
        ∃ code, (s.carryOut p).fault = true ∧ (s.carryOut p).errcode = errBits code ∧
          (s.carryOut p).resp = some (.invalid code)) := by
  rw [carryOut_fault, carryOut_errcode, carryOut_resp]
  cases p.response with
  | ok => exact ⟨id, .inl ⟨rfl, rfl⟩⟩
  | invalid code => exact ⟨fun _ => rfl, .inr ⟨code, rfl, rfl, rfl⟩⟩

/-- Settles O41: only a plan ends with an exception, and no small step touches the flags. -/
theorem faultIsSticky : Obligations.FaultIsSticky := by
  intro s t run
  rcases step_cases run with ⟨_, small⟩ | ⟨_, ⟨_, rfl⟩ | ⟨r, rest, _, ⟨i, _, rfl⟩ | ⟨code, _, rfl⟩⟩⟩
  · rcases microStep_frame small with ⟨evs, ⟨q, bs, rfl⟩ | rfl⟩ <;> rw [State.emit_eq] <;> exact ⟨id, .inl ⟨rfl, rfl⟩⟩
  · exact ⟨id, .inl ⟨rfl, rfl⟩⟩
  · exact flags_carryOut ((s.take r rest).accept i) _
  · exact flags_carryOut (s.take r rest) (.reject code)

/-! ## What a step leaves alone -/

/-- Settles O44: a small step performs events and moves the sequencer. -/
theorem busyBlockAcceptsNothing : Obligations.BusyBlockAcceptsNothing := by
  refine ⟨fun _ _ => exec_busy, fun s t busy run => ?_⟩
  rw [step_of_busy busy] at run
  rcases microStep_frame run with ⟨evs, ⟨q, bs, rfl⟩ | rfl⟩ <;> rw [State.emit_eq] <;> exact ⟨rfl, rfl, rfl, rfl, rfl, rfl⟩

/-- Settles O46: a plan and a small step each append their events. -/
theorem traceOnlyGrows : Obligations.TraceOnlyGrows := by
  intro s t run
  rcases step_cases run with ⟨_, small⟩ | ⟨_, ⟨_, rfl⟩ | ⟨r, rest, _, ⟨i, _, rfl⟩ | ⟨code, _, rfl⟩⟩⟩
  · rcases microStep_frame small with ⟨evs, ⟨q, bs, rfl⟩ | rfl⟩ <;> rw [State.emit_eq] <;> exact ⟨evs, rfl⟩
  · exact ⟨[], (List.append_nil _).symm⟩
  · exact ⟨_, carryOut_trace _ _⟩
  · exact ⟨[], (List.append_nil _).symm⟩

/-! ## Which requests write contexts -/

/-- A store in context `h` leaves every other context (R32, R51). -/
theorem carryOut_accept_store_other (i : Instr) (s : State) {h : Fin Config.nseg} (ws : List (Fin Config.bufLen × Byte))
    (c : Option Context) {a : BufAddr} (other : a.h ≠ h) :
    ((s.accept i).carryOut (.store h ws c)).memRead a = s.memRead a ∧
      ((s.accept i).carryOut (.store h ws c)).context a.h = s.context a.h := by
  rw [carryOut_accept_store]
  refine ⟨(State.memRead_congr (s := s.writeBuf h ws) rfl a).trans (s.memRead_writeBuf_other ws other), ?_⟩
  cases c with
  | none => rfl
  | some c => exact (s.context_bind h a.h c).trans (if_neg other)

/-- R32, R33: an idle block's `SEG.ATTACH` leaves every context but its own. -/
theorem segAttach_frame {h d slot : Nat} {p : Plan} (plan : PlanCase s (.segAttach h d slot) p) {a : BufAddr}
    (other : a.h.val ≠ h) :
    ((s.accept (.segAttach h d slot)).carryOut p).memRead a = s.memRead a ∧
      ((s.accept (.segAttach h d slot)).carryOut p).context a.h = s.context a.h := by
  cases plan with
  | attach h => exact carryOut_accept_store_other _ s _ _ fun same => other (congrArg Fin.val same)
  | reject | frame => exact ⟨State.memRead_congr (carryOut_segbuf _ _) a, State.context_congr (carryOut_ctxs _ _) a.h⟩

/-- R32, R33: an idle block's `SEG.SET` leaves the bindings, the header bytes and every context but its own. -/
theorem segSet_frame {h j v : Nat} {p : Plan} (plan : PlanCase s (.segSet h j v) p) :
    ((s.accept (.segSet h j v)).carryOut p).ctxs = s.ctxs ∧
      (∀ a : BufAddr, a.k.val ≤ 1 → ((s.accept (.segSet h j v)).carryOut p).memRead a = s.memRead a) ∧
      ∀ a : BufAddr, a.h.val ≠ h → ((s.accept (.segSet h j v)).carryOut p).memRead a = s.memRead a := by
  cases plan with
  | reject | frame =>
    exact ⟨carryOut_ctxs _ _, fun a _ => State.memRead_congr (carryOut_segbuf _ _) a,
      fun a _ => State.memRead_congr (carryOut_segbuf _ _) a⟩
  | set h =>
    refine ⟨carryOut_ctxs _ _, fun a header => ?_, fun a other => ?_⟩
    · have column : 2 ≤ (segByte j).val := Nat.le_add_right 2 _
      rw [carryOut_accept_store]
      refine (State.memRead_congr (s := s.memWrite _ _) rfl a).trans ((s.memRead_memWrite _ a _).trans (if_neg ?_))
      rintro rfl
      exact absurd column (Nat.not_le.mpr (Nat.lt_succ_of_le header))
    · exact (carryOut_accept_store_other _ s _ _ fun same => other (congrArg Fin.val same)).1

/-- A request other than the two leaves contexts and buffers. -/
theorem other_frame {i : Instr} {p : Plan} (plan : PlanCase s i p) (noAttach : ∀ h d slot, i ≠ .segAttach h d slot)
    (noSet : ∀ h j v, i ≠ .segSet h j v) :
    ((s.accept i).carryOut p).ctxs = s.ctxs ∧ ((s.accept i).carryOut p).segbuf = s.segbuf := by
  cases plan with
  | attach h => exact absurd rfl (noAttach _ _ _)
  | set h v => exact absurd rfl (noSet _ _ _)
  | reject | frame | pulse | nothing | update => exact ⟨carryOut_ctxs _ _, carryOut_segbuf _ _⟩

/-- Settles O47: a busy block changes nothing; of an idle one, each request by its plan. -/
theorem onlyAttachAndSetWriteContexts : Obligations.OnlyAttachAndSetWriteContexts := by
  intro i s t run
  cases busy : s.busy
  case true =>
    cases (exec_busy busy).symm.trans run
    exact ⟨fun _ => ⟨rfl, fun _ _ => rfl⟩, fun _ _ => rfl, fun _ _ _ _ _ _ => ⟨rfl, rfl⟩, fun _ _ _ _ _ _ => rfl⟩
  case false =>
    cases (exec_idle busy).symm.trans run
    have plan := planCase i s
    refine ⟨fun noAttach => ?_, fun noAttach noSet => (other_frame plan noAttach noSet).2, ?_, ?_⟩
    · by_cases isSet : ∃ h j v, i = .segSet h j v
      · obtain ⟨h, j, v, rfl⟩ := isSet
        obtain ⟨contexts, headers, _⟩ := segSet_frame plan
        exact ⟨contexts, headers⟩
      · obtain ⟨contexts, buffers⟩ := other_frame plan noAttach fun h j v e => isSet ⟨h, j, v, e⟩
        exact ⟨contexts, fun a _ => State.memRead_congr buffers a⟩
    · rintro h d slot rfl a other
      exact segAttach_frame plan other
    · rintro h j v rfl a other
      exact (segSet_frame plan).2.2 a other

/-! ## What requests depend on -/

/-- R34, R152: the plan of a request that is no `SEG` request is a function of its operands. -/
theorem planOf_const {i : Instr} (noAttach : ∀ h d slot, i ≠ .segAttach h d slot) (noSet : ∀ h j v, i ≠ .segSet h j v)
    (noUpdate : ∀ h, i ≠ .segUpdate h) : ∃ p, ∀ s, planOf i s = p := by
  cases i with
  | segAttach h d slot => exact absurd rfl (noAttach h d slot)
  | segSet h j v => exact absurd rfl (noSet h j v)
  | segUpdate h => exact absurd rfl (noUpdate h)
  | send | creset | blankNormal | blankAllOn | blankAllOff | dlen | dim | freq | curs | defch => exact ⟨_, fun _ => rfl⟩

/-- Settles O48: the plan is fixed before the state, and with it the events and the response. -/
theorem commandsDependOnOperandsOnly : Obligations.CommandsDependOnOperandsOnly := by
  intro i noAttach noSet noUpdate
  obtain ⟨p, plan⟩ := planOf_const noAttach noSet noUpdate
  refine ⟨p.events, p.response, fun s idle => ⟨_, exec_idle idle, ?_, ?_⟩⟩
  · rw [plan, carryOut_trace]
    rfl
  · rw [plan, carryOut_resp]

/-- R22: a plan is made of the operands, the contexts and the buffers. -/
theorem planOf_congr (i : Instr) (contexts : t.ctxs = s.ctxs) (buffers : t.segbuf = s.segbuf) : planOf i t = planOf i s := by
  have context := State.context_congr contexts
  have byte := State.memRead_congr buffers
  cases i with
  | segSet h j v => simp only [planOf, planSegSet, context, byte]
  | segUpdate h => simp only [planOf, planSegUpdate, State.updateFrames, State.bufBytes, context, byte]
  | segAttach | send | creset | blankNormal | blankAllOn | blankAllOff | dlen | dim | freq | curs | defch => rfl

/-- The contexts and buffers that a plan leaves are made of those before. -/
theorem Plan.contexts_congr (p : Plan) (contexts : t.ctxs = s.ctxs) (buffers : t.segbuf = s.segbuf) :
    p.contexts t = p.contexts s ∧ p.buffers t = p.buffers s := by
  cases p with
  | store h ws c =>
    refine ⟨?_, State.writeBuf_congr h ws buffers⟩
    cases c with
    | none => exact contexts
    | some c => exact congrArg (Vector.set · h c) contexts
  | reject | frames | pulse | nothing => exact ⟨contexts, buffers⟩

/-- Settles O49: neither the plan nor what it leaves outside the lines is made of the lines or the trace. -/
theorem linesAreNeverRead : Obligations.LinesAreNeverRead := by
  intro i s c k d r tr idle
  obtain ⟨contexts, buffers⟩ := Plan.contexts_congr (planOf i s) (t := s.accept i)
    (s := ({ s with cs := c, clk := k, data := d, rst := r, trace := tr } : State).accept i) rfl rfl
  have plan : planOf i { s with cs := c, clk := k, data := d, rst := r, trace := tr } = planOf i s := planOf_congr i rfl rfl
  refine ⟨(planOf i s).events, _, _, exec_idle idle, exec_idle idle, carryOut_trace _ _, ?_, ?_⟩
  · rw [plan, carryOut_trace]
    rfl
  · rw [plan, carryOut_eq, carryOut_eq, contexts, buffers]
    rfl

end Sys2Proof.Machine
end

section
/-! PROOFS. The sequencer: a request in progress ends, and its small steps amount to the big step (R24, R112, R116, R121). -/

namespace Sys2Proof.Machine

open Sys2Proof.Safety

/-! ## Sequences of small steps -/

/-- Small steps of a busy block, one after the other. -/
inductive SmallSteps : State → State → Prop where
  | refl (s : State) : SmallSteps s s
  | step {s t u : State} : s.busy = true → microStep s = .next t → SmallSteps t u → SmallSteps s u

theorem SmallSteps.trans {s t u : State} (first : SmallSteps s t) (second : SmallSteps t u) : SmallSteps s u := by
  induction first with
  | refl => exact second
  | step busy small _ ih => exact .step busy small (ih second)

/-- Small steps are a run of the sequencer with enough fuel. -/
theorem SmallSteps.runBusy_eq {s t : State} (steps : SmallSteps s t) : ∃ n, runBusy n s = .next t := by
  induction steps with
  | refl s => exact ⟨0, rfl⟩
  | step busy small _ ih =>
    obtain ⟨n, run⟩ := ih
    exact ⟨n + 1, by simp only [runBusy, busy, small, run, if_true]⟩

/-- The state with events performed and the sequencer at a position. -/
def State.moved (evs : List Event) (p : SeqPos) (s : State) : State := { s.emit evs with seq := .run p }

variable {s : State} {f k : Nat} {i : BitVec 3}

theorem moved_busy (evs : List Event) (p : SeqPos) : (s.moved evs p).busy = s.busy := by
  rw [State.moved, State.emit_eq]

theorem moved_txq (evs : List Event) (p : SeqPos) : (s.moved evs p).txq = s.txq := by
  rw [State.moved, State.emit_eq]

theorem moved_nextFrame (evs : List Event) (p : SeqPos) (f : Nat) : (s.moved evs p).nextFrame f = s.nextFrame f := by
  rw [State.moved, State.emit_eq]
  rfl

theorem moved_moved (xs ys : List Event) (p q : SeqPos) : (s.moved xs p).moved ys q = s.moved (xs ++ ys) q := by
  rw [State.moved, State.moved, State.emit_seq, State.emit_append]
  rfl

/-! ## A bit, a byte, a frame -/

/-- R112: the four phases of a bit cell. -/
theorem smallSteps_bitCell {b : Byte} (busy : s.busy = true) (hs : s.seq = .run ⟨f, k, i, .setup⟩)
    (hb : s.txq[k]? = some b) :
    SmallSteps s (s.moved (bitCell (b.getLsbD i.toNat)) (SeqPos.advance ⟨f, k, i, .holdHigh⟩ s.txq.length)) :=
  .step busy (microStep_setup hs hb) <| .step busy (microStep_holdLow rfl) <| .step busy (microStep_rise rfl) <|
    .step busy (microStep_holdHigh rfl) <| .refl _

/-- The bits of a byte from bit `n` down (R55). -/
def bitsFrom (b : Byte) : Nat → List Bool
  | 0 => [b.getLsbD 0]
  | n + 1 => b.getLsbD (n + 1) :: bitsFrom b n

theorem bitsFrom_seven (b : Byte) : (bitsFrom b 7).flatMap bitCell = byteTrace b := rfl

/-- R112: the bits that are left of a byte. -/
theorem smallSteps_bits {b : Byte} (n : Nat) (hn : i.toNat = n) (busy : s.busy = true)
    (hs : s.seq = .run ⟨f, k, i, .setup⟩) (hb : s.txq[k]? = some b) :
    SmallSteps s (s.moved ((bitsFrom b n).flatMap bitCell) (SeqPos.advance ⟨f, k, 0#3, .holdHigh⟩ s.txq.length)) := by
  induction n generalizing s i with
  | zero =>
    obtain rfl : i = 0#3 := BitVec.eq_of_toNat_eq hn
    have cell := smallSteps_bitCell busy hs hb
    rw [hn] at cell
    rw [bitsFrom, List.flatMap_cons, List.flatMap_nil, List.append_nil]
    exact cell
  | succ n ih =>
    have cell := smallSteps_bitCell busy hs hb
    have next : SeqPos.advance ⟨f, k, i, .holdHigh⟩ s.txq.length = ⟨f, k, i - 1#3, .setup⟩ :=
      if_pos (by rintro rfl; cases hn)
    have below : (i - 1#3).toNat = n := by bv_omega
    rw [next, hn] at cell
    have rest := ih (s := s.moved (bitCell (b.getLsbD (n + 1))) ⟨f, k, i - 1#3, .setup⟩) below
      ((moved_busy _ _).trans busy) rfl (by rw [moved_txq]; exact hb)
    rw [moved_moved, moved_txq] at rest
    rw [bitsFrom, List.flatMap_cons]
    exact cell.trans rest

/-- R112: the rest of a frame, from the middle of a byte to the release of chip-select. -/
theorem smallSteps_restOfFrame {b : Byte} (m : Nat) (hm : s.txq.length = k + 1 + m) (busy : s.busy = true)
    (hs : s.seq = .run ⟨f, k, i, .setup⟩) (hb : s.txq[k]? = some b) :
    ∃ k', SmallSteps s (s.moved ((bitsFrom b i.toNat).flatMap bitCell ++ (s.txq.drop (k + 1)).flatMap byteTrace)
      ⟨f, k', 0#3, .csRelease⟩) := by
  induction m generalizing s k i b with
  | zero =>
    have bits := smallSteps_bits i.toNat rfl busy hs hb
    have last : SeqPos.advance ⟨f, k, 0#3, .holdHigh⟩ s.txq.length = ⟨f, k, 0#3, .csRelease⟩ := by
      simp [SeqPos.advance, hm]
    rw [last] at bits
    rw [List.drop_eq_nil_of_le (by omega), List.flatMap_nil, List.append_nil]
    exact ⟨k, bits⟩
  | succ m ih =>
    have bits := smallSteps_bits i.toNat rfl busy hs hb
    have next : SeqPos.advance ⟨f, k, 0#3, .holdHigh⟩ s.txq.length = ⟨f, k + 1, 7#3, .setup⟩ := by
      simp [SeqPos.advance, hm]
    have inQueue : k + 1 < s.txq.length := by omega
    rw [next] at bits
    obtain ⟨k', rest⟩ := ih (s := s.moved ((bitsFrom b i.toNat).flatMap bitCell) ⟨f, k + 1, 7#3, .setup⟩) (k := k + 1)
      (i := 7#3) (b := s.txq[k + 1]) (by rw [moved_txq]; omega) ((moved_busy _ _).trans busy) rfl
      (by rw [moved_txq]; exact List.getElem?_eq_getElem inQueue)
    rw [moved_moved, moved_txq] at rest
    rw [List.drop_eq_getElem_cons inQueue, List.flatMap_cons, ← bitsFrom_seven]
    exact ⟨k', bits.trans rest⟩

/-- R112: a frame from its start to the release of chip-select. -/
theorem smallSteps_frame (busy : s.busy = true) (hs : s.seq = .run ⟨f, k, i, .csAssert⟩) :
    ∃ k' i', SmallSteps s (s.moved (.set .cs false :: s.txq.flatMap byteTrace) ⟨f, k', i', .csRelease⟩) := by
  have start := microStep_csAssert hs
  match hq : s.txq with
  | [] =>
    rw [hq, if_pos rfl] at start
    exact ⟨k, i, .step busy start (.refl _)⟩
  | b :: bs =>
    rw [hq, if_neg (List.cons_ne_nil b bs)] at start
    obtain ⟨k', rest⟩ := smallSteps_restOfFrame (s := s.moved [.set .cs false] ⟨f, 0, 7#3, .setup⟩) (b := b) (i := 7#3)
      bs.length (by rw [moved_txq, hq, List.length_cons]; omega) ((moved_busy _ _).trans busy) rfl
      (by rw [moved_txq, hq]; rfl)
    rw [moved_moved, moved_txq, hq] at rest
    exact ⟨k', 0#3, .step busy start rest⟩

/-! ## A request in progress ends -/

/-- Small steps end the request in progress, with `OK`. -/
def Ends (s : State) : Prop := ∃ t, SmallSteps s t ∧ t.busy = false ∧ t.seq = .idle ∧ t.resp = some .ok

theorem SmallSteps.ends {s t : State} (steps : SmallSteps s t) (ends : Ends t) : Ends s := by
  obtain ⟨u, rest, last⟩ := ends
  exact ⟨u, steps.trans rest, last⟩

/-- R121: from the release of chip-select; there are at most three frames. -/
theorem ends_of_csRelease (n : Nat) (hn : 3 ≤ f + n) (busy : s.busy = true) (hs : s.seq = .run ⟨f, k, i, .csRelease⟩) :
    Ends s := by
  induction n generalizing s f k i with
  | zero =>
    match next : s.nextFrame f with
    | none => exact ⟨_, .step busy (microStep_csRelease_last hs next) (.refl _), rfl, rfl, rfl⟩
    | some bs => exact absurd (State.nextFrame_lt next) (by omega)
  | succ n ih =>
    match next : s.nextFrame f with
    | none => exact ⟨_, .step busy (microStep_csRelease_last hs next) (.refl _), rfl, rfl, rfl⟩
    | some bs =>
      obtain ⟨k', i', frame⟩ := smallSteps_frame (s := { s.drive .cs true with txq := bs, seq := .run ⟨f + 1, 0, 7#3, .csAssert⟩ })
        (f := f + 1) busy rfl
      exact (SmallSteps.step busy (microStep_csRelease_next hs next) frame).ends
        (ih (by omega) ((moved_busy _ _).trans busy) rfl)

theorem ends_of_csAssert (busy : s.busy = true) (hs : s.seq = .run ⟨f, k, i, .csAssert⟩) : Ends s := by
  obtain ⟨k', i', frame⟩ := smallSteps_frame busy hs
  exact frame.ends (ends_of_csRelease 3 (by omega) ((moved_busy _ _).trans busy) rfl)

theorem ends_of_setup (busy : s.busy = true) (hs : s.seq = .run ⟨f, k, i, .setup⟩) (hk : k < s.txq.length) : Ends s := by
  obtain ⟨k', rest⟩ := smallSteps_restOfFrame (s.txq.length - (k + 1)) (by omega) busy hs (List.getElem?_eq_getElem hk)
  exact rest.ends (ends_of_csRelease 3 (by omega) ((moved_busy _ _).trans busy) rfl)

/-- R112: after a bit cell stands the next bit, the next byte or the release. -/
theorem ends_of_advance {ph : Phase} (busy : s.busy = true) (hs : s.seq = .run (SeqPos.advance ⟨f, k, i, ph⟩ s.txq.length))
    (hk : k < s.txq.length) : Ends s := by
  unfold SeqPos.advance at hs
  split at hs
  next => exact ends_of_setup busy hs hk
  next =>
  split at hs
  next more => exact ends_of_setup busy hs more
  next => exact ends_of_csRelease 3 (by omega) busy hs

theorem ends_of_holdHigh (busy : s.busy = true) (hs : s.seq = .run ⟨f, k, i, .holdHigh⟩) (hk : k < s.txq.length) : Ends s :=
  (SmallSteps.step busy (microStep_holdHigh hs) (.refl _)).ends (ends_of_advance busy rfl hk)

theorem ends_of_rise (busy : s.busy = true) (hs : s.seq = .run ⟨f, k, i, .rise⟩) (hk : k < s.txq.length) : Ends s :=
  (SmallSteps.step busy (microStep_rise hs) (.refl _)).ends (ends_of_holdHigh busy rfl hk)

theorem ends_of_holdLow (busy : s.busy = true) (hs : s.seq = .run ⟨f, k, i, .holdLow⟩) (hk : k < s.txq.length) : Ends s :=
  (SmallSteps.step busy (microStep_holdLow hs) (.refl _)).ends (ends_of_rise busy rfl hk)

theorem ends_of_rRecover (busy : s.busy = true) (hs : s.seq = .run ⟨f, k, i, .rRecover⟩) : Ends s :=
  ⟨_, .step busy (microStep_rRecover hs) (.refl _), rfl, rfl, rfl⟩

theorem ends_of_rPulse (busy : s.busy = true) (hs : s.seq = .run ⟨f, k, i, .rPulse⟩) : Ends s :=
  (SmallSteps.step busy (microStep_rPulse hs) (.refl _)).ends (ends_of_rRecover busy rfl)

theorem ends_of_rPre (busy : s.busy = true) (hs : s.seq = .run ⟨f, k, i, .rPre⟩) : Ends s :=
  (SmallSteps.step busy (microStep_rPre hs) (.refl _)).ends (ends_of_rPulse busy rfl)

theorem ends_of_rCs (busy : s.busy = true) (hs : s.seq = .run ⟨f, k, i, .rCs⟩) : Ends s :=
  (SmallSteps.step busy (microStep_rCs hs) (.refl _)).ends (ends_of_rPre busy rfl)

/-- R24 to R26: a busy block whose control fields agree is in some phase, and in a bit cell of a byte of the queue. -/
theorem run_of_controlSound (sound : ControlSound s) (busy : s.busy = true) :
    ∃ f k i ph, s.seq = .run ⟨f, k, i, ph⟩ ∧ (inBit ph = true → k < s.txq.length) := by
  obtain ⟨agree, positions⟩ := sound
  match hs : s.seq with
  | .idle => exact absurd hs (agree.mp busy)
  | .run ⟨f, k, i, ph⟩ => exact ⟨f, k, i, ph, rfl, (positions _ hs).1⟩

/-- R121: from every phase. -/
theorem ends_of_controlSound (sound : ControlSound s) (busy : s.busy = true) : Ends s := by
  obtain ⟨f, k, i, ph, hs, inQueue⟩ := run_of_controlSound sound busy
  cases ph with
  | csAssert => exact ends_of_csAssert busy hs
  | setup => exact ends_of_setup busy hs (inQueue rfl)
  | holdLow => exact ends_of_holdLow busy hs (inQueue rfl)
  | rise => exact ends_of_rise busy hs (inQueue rfl)
  | holdHigh => exact ends_of_holdHigh busy hs (inQueue rfl)
  | csRelease => exact ends_of_csRelease 3 (by omega) busy hs
  | rCs => exact ends_of_rCs busy hs
  | rPre => exact ends_of_rPre busy hs
  | rPulse => exact ends_of_rPulse busy hs
  | rRecover => exact ends_of_rRecover busy hs

/-- Settles O51: every phase leads to the next, and there are at most three frames. -/
theorem requestInProgressEnds : Obligations.RequestInProgressEnds := by
  intro s sound busy
  obtain ⟨t, steps, last⟩ := ends_of_controlSound sound busy
  obtain ⟨n, run⟩ := steps.runBusy_eq
  exact ⟨n, t, run, last⟩

/-- Settles O55: a busy block has a small step on its way to the end, an idle one answers its port. -/
theorem soundStatesNeverStop : Obligations.SoundStatesNeverStop := by
  intro s sound
  cases busy : s.busy
  case true =>
    obtain ⟨t, steps, last, _⟩ := ends_of_controlSound sound busy
    rw [step_of_busy busy]
    cases steps with
    | refl => cases busy.symm.trans last
    | step _ small _ => exact ⟨_, small⟩
  case false =>
    match host : s.host with
    | [] => exact ⟨s, step_of_no_request busy host⟩
    | r :: rest =>
      match decodes : decode r with
      | .error code => exact ⟨_, step_of_decode_error busy host decodes⟩
      | .ok i => exact ⟨_, (step_eq_exec_take busy host decodes).trans (exec_idle (s := s.take r rest) busy)⟩

/-! ## The small steps amount to the big step -/

theorem drive_cs_moved (evs : List Event) (p : SeqPos) (v : Bool) :
    (s.moved evs p).drive .cs v = s.moved (evs ++ [.set .cs v]) p :=
  moved_moved evs [.set .cs v] p p

/-- A frame to come is loaded over what the queue holds, and the response over the sequencer's position. -/
theorem respond_foldl_sendFrame (s : State) (q : Seq) (old bs : Bytes) (rest : List Bytes) (r : Response) :
    ((bs :: rest).foldl State.sendFrame { s with seq := q, txq := old }).respond r =
      ((bs :: rest).foldl State.sendFrame s).respond r := by
  rw [foldl_sendFrame_eq, foldl_sendFrame_eq, State.emit_eq, State.emit_eq, List.getLast?_cons]
  rfl

/-- R121, R185: the frames of a request, one after the other. -/
theorem smallSteps_frames (rest : List Bytes) (busy : s.busy = true) (hs : s.seq = .run ⟨f, k, i, .csAssert⟩)
    (next : ∀ j, s.nextFrame (f + j) = rest[j]?) :
    SmallSteps s (((s.txq :: rest).foldl State.sendFrame s).respond .ok) := by
  induction rest generalizing s f k i with
  | nil =>
    obtain ⟨k', i', frame⟩ := smallSteps_frame busy hs
    have release := microStep_csRelease_last
      (s := s.moved (.set .cs false :: s.txq.flatMap byteTrace) ⟨f, k', i', .csRelease⟩) rfl
      ((moved_nextFrame _ _ _).trans (next 0))
    rw [drive_cs_moved] at release
    exact frame.trans (.step ((moved_busy _ _).trans busy) release (.refl _))
  | cons bs rest ih =>
    obtain ⟨k', i', frame⟩ := smallSteps_frame busy hs
    have release := microStep_csRelease_next
      (s := s.moved (.set .cs false :: s.txq.flatMap byteTrace) ⟨f, k', i', .csRelease⟩) rfl
      ((moved_nextFrame _ _ _).trans (next 0))
    rw [drive_cs_moved] at release
    have following (j : Nat) : s.nextFrame (f + 1 + j) = rest[j]? := by
      rw [Nat.add_assoc, Nat.add_comm 1 j]
      exact next (j + 1)
    have others := ih (s := { s.moved (sendTrace s.txq) ⟨f, k', i', .csRelease⟩ with
        txq := bs, seq := .run ⟨f + 1, 0, 7#3, .csAssert⟩ }) (f := f + 1) (k := 0) (i := 7#3)
      ((moved_busy (sendTrace s.txq) ⟨f, k', i', .csRelease⟩).trans busy) rfl
      (fun j => (moved_nextFrame (sendTrace s.txq) ⟨f, k', i', .csRelease⟩ _).trans (following j))
    refine frame.trans (.step ((moved_busy _ _).trans busy) release ?_)
    have same := respond_foldl_sendFrame (s.sendFrame s.txq) (.run ⟨f + 1, 0, 7#3, .csAssert⟩) bs bs rest .ok
    rw [List.foldl_cons, ← same]
    exact others

/-- R24, R25, R121: after frame `j` of a request follows the next one of its plan; only `SEG.UPDATE` has more than one. -/
theorem nextFrame_accept {i : Instr} {fs : List Bytes} (plan : PlanCase s i (.frames fs)) (j : Nat) :
    (s.accept i).nextFrame j = fs[j + 1]? := by
  cases plan with
  | frame bs notUpdate => exact if_neg (notUpdate s.latch)
  | update h =>
    have context : Request.context ((Instr.segUpdate h).onto s.latch) = h := Fin.ext (Nat.mod_eq_of_lt h.isLt)
    refine (if_pos rfl).trans ?_
    rw [State.accept_latch, context]
    rfl

/-- R112, R116: from the first move to the response, by the plan. -/
theorem smallSteps_startRequest (idle : s.busy = false) (i : Instr) :
    SmallSteps (startRequest i s) ((s.accept i).carryOut (planOf i s)) := by
  have start : startRequest i s = (s.accept i).start (planOf i s) := if_neg (by simp [idle])
  rw [start]
  match plan : planOf i s with
  | .reject code => exact .refl _
  | .nothing => exact .refl _
  | .store h ws c => exact .refl _
  | .frames [] => exact .refl _
  | .frames (bs :: rest) =>
    have frames := smallSteps_frames (s := { s.accept i with txq := bs, seq := .run ⟨0, 0, 7#3, .csAssert⟩ }) rest rfl rfl
      (fun j => (Nat.zero_add j).symm ▸ nextFrame_accept (plan ▸ planCase i s) j)
    rw [carryOut_frames, ← respond_foldl_sendFrame (s.accept i) (.run ⟨0, 0, 7#3, .csAssert⟩) bs]
    exact frames
  | .pulse =>
    exact .step rfl (microStep_rCs rfl) <| .step rfl (microStep_rPre rfl) <| .step rfl (microStep_rPulse rfl) <|
      .step rfl (microStep_rRecover rfl) <| .refl _

/-- Settles O50: the small steps carry out the plan that the big step carries out. -/
theorem smallStepsAmountToTheBigStep : Obligations.SmallStepsAmountToTheBigStep := by
  intro i s idle
  rw [exec_idle idle]
  exact (smallSteps_startRequest idle i).runBusy_eq

end Sys2Proof.Machine
end

section
/-! PROOFS. The block after reset, and the invariants that every step keeps (R20 to R33, R112, R118, R231 to R235). -/

namespace Sys2Proof.Machine

open Sys2Proof.Safety

variable {s t : State}

/-! ## Control: BUSY, sequencer and queue -/

theorem controlSound_of_idle (idle : t.busy = false) (seq : t.seq = .idle) : ControlSound t := by
  refine ⟨by simp [idle, seq], fun p hp => ?_⟩
  cases seq.symm.trans hp

theorem controlSound_of_run {q : SeqPos} (busy : t.busy = true) (seq : t.seq = .run q)
    (inQueue : inBit q.ph = true → q.k < t.txq.length) (line : inPulse q.ph = true → Config.hasRst = true) :
    ControlSound t := by
  refine ⟨by simp [busy, seq], fun p hp => ?_⟩
  cases seq.symm.trans hp
  exact ⟨inQueue, line⟩

/-- R112: the position after a bit cell is inside the queue. -/
theorem advance_phase {f k len : Nat} {i : BitVec 3} {ph : Phase} (hk : k < len) :
    (inBit (SeqPos.advance ⟨f, k, i, ph⟩ len).ph = true → (SeqPos.advance ⟨f, k, i, ph⟩ len).k < len) ∧
      inPulse (SeqPos.advance ⟨f, k, i, ph⟩ len).ph = false ∧ inFrame (SeqPos.advance ⟨f, k, i, ph⟩ len).ph = true ∧
      (SeqPos.advance ⟨f, k, i, ph⟩ len).ph ≠ .rRecover := by
  unfold SeqPos.advance
  split
  next => exact ⟨fun _ => hk, rfl, rfl, nofun⟩
  next =>
  split
  next more => exact ⟨fun _ => more, rfl, rfl, nofun⟩
  next => exact ⟨nofun, rfl, rfl, nofun⟩

/-- Every arrow of R112 and R116 leads to a position that agrees with BUSY and the queue. -/
theorem controlSound_microStep (sound : ControlSound s) (busy : s.busy = true) (run : microStep s = .next t) :
    ControlSound t := by
  obtain ⟨agree, positions⟩ := sound
  match hs : s.seq with
  | .idle => exact absurd hs (agree.mp busy)
  | .run ⟨f, k, i, ph⟩ =>
    obtain ⟨inQueue, line⟩ := positions _ hs
    cases ph with
    | csAssert =>
      cases (microStep_csAssert hs).symm.trans run
      refine controlSound_of_run busy rfl ?_ ?_
      · split
        next => exact nofun
        next notEmpty => exact fun _ => List.length_pos_iff.mpr notEmpty
      · split <;> exact nofun
    | setup =>
      cases (microStep_setup hs (List.getElem?_eq_getElem (inQueue rfl))).symm.trans run
      exact controlSound_of_run busy rfl inQueue nofun
    | holdLow =>
      cases (microStep_holdLow hs).symm.trans run
      exact controlSound_of_run busy rfl inQueue nofun
    | rise =>
      cases (microStep_rise hs).symm.trans run
      exact controlSound_of_run busy rfl inQueue nofun
    | holdHigh =>
      cases (microStep_holdHigh hs).symm.trans run
      obtain ⟨inside, noPulse, _⟩ := advance_phase (f := f) (i := i) (ph := .holdHigh) (inQueue rfl)
      exact controlSound_of_run busy rfl inside (by simp [noPulse])
    | csRelease =>
      match hn : s.nextFrame f with
      | none =>
        cases (microStep_csRelease_last hs hn).symm.trans run
        exact controlSound_of_idle rfl rfl
      | some bs =>
        cases (microStep_csRelease_next hs hn).symm.trans run
        exact controlSound_of_run busy rfl nofun nofun
    | rCs =>
      cases (microStep_rCs hs).symm.trans run
      exact controlSound_of_run busy rfl nofun line
    | rPre =>
      cases (microStep_rPre hs).symm.trans run
      exact controlSound_of_run busy rfl nofun line
    | rPulse =>
      cases (microStep_rPulse hs).symm.trans run
      exact controlSound_of_run busy rfl nofun line
    | rRecover =>
      cases (microStep_rRecover hs).symm.trans run
      exact controlSound_of_idle rfl rfl

/-! ## Lines -/

/-- The lines and the trace of `t` are those of `s` after the events (R20, R38). -/
structure Performed (s t : State) (evs : List Event) : Prop where
  cs : t.cs = levelAfter .cs s.cs evs
  clk : t.clk = levelAfter .clk s.clk evs
  data : t.data = levelAfter .data s.data evs
  rst : t.rst = s.rst.map fun v => levelAfter .rst v evs
  trace : t.trace = s.trace ++ evs

theorem performed_moved (evs : List Event) (q : Seq) (bs : Bytes) : Performed s { s.emit evs with seq := q, txq := bs } evs := by
  rw [State.emit_eq]
  exact ⟨rfl, rfl, rfl, rfl, rfl⟩

theorem performed_respond (evs : List Event) (r : Response) : Performed s ((s.emit evs).respond r) evs := by
  rw [State.emit_eq]
  exact ⟨rfl, rfl, rfl, rfl, rfl⟩

theorem performed_carryOut (p : Plan) : Performed s (s.carryOut p) p.events := by
  rw [carryOut_eq]
  exact ⟨rfl, rfl, rfl, rfl, rfl⟩

/-- The reset line is active only between the pulse and the recovery (R115). -/
def PulsePhase (q : Seq) : Prop := ∃ p, q = .run p ∧ p.ph = .rRecover

/-- Chip-select is active in these phases (R112). -/
def FramePhase (q : Seq) : Prop := ∃ p, q = .run p ∧ inFrame p.ph = true

/-- Events keep the lines sound when they drive CS and RST to what the sequencer's next position asks for. -/
theorem linesSound_performed {evs : List Event} (sound : LinesSound s) (performed : Performed s t evs)
    (cs : levelAfter .cs s.cs evs = false ↔ FramePhase t.seq)
    (rst : ∀ v, s.rst = some v → levelAfter .rst v evs = Config.rstActive → PulsePhase t.seq)
    (absent : Config.hasRst = false → ∀ v, Event.set .rst v ∉ evs) : LinesSound t := by
  obtain ⟨csLevel, clkLevel, dataLevel, rstLevel, _, _, noRst⟩ := sound
  refine ⟨?_, ?_, ?_, ?_, ?_, ?_, ?_⟩
  · rw [performed.cs, performed.trace, levelAfter_append, ← csLevel]
  · rw [performed.clk, performed.trace, levelAfter_append, ← clkLevel]
  · rw [performed.data, performed.trace, levelAfter_append, ← dataLevel]
  · rw [performed.rst, performed.trace, rstLevel, levelAfter_append]
    split <;> rfl
  · rw [performed.cs]
    exact cs
  · intro active
    rw [performed.rst, Option.map_eq_some_iff] at active
    obtain ⟨v, before, after⟩ := active
    exact rst v before after
  · intro noLine v
    rw [performed.trace, List.mem_append, not_or]
    exact ⟨noRst noLine v, absent noLine v⟩

theorem linesSound_run {evs : List Event} {q : SeqPos} (sound : LinesSound s) (performed : Performed s t evs)
    (seq : t.seq = .run q) (cs : levelAfter .cs s.cs evs = !inFrame q.ph)
    (rst : ∀ v, s.rst = some v → levelAfter .rst v evs = Config.rstActive → q.ph = .rRecover)
    (absent : Config.hasRst = false → ∀ v, Event.set .rst v ∉ evs) : LinesSound t := by
  refine linesSound_performed sound performed ?_ (fun v before after => ⟨q, seq, rst v before after⟩) absent
  rw [cs, Bool.not_eq_false']
  refine ⟨fun frame => ⟨q, seq, frame⟩, ?_⟩
  rintro ⟨p, hp, frame⟩
  cases seq.symm.trans hp
  exact frame

theorem linesSound_idle {evs : List Event} (sound : LinesSound s) (performed : Performed s t evs) (seq : t.seq = .idle)
    (cs : levelAfter .cs s.cs evs = true) (rst : ∀ v, s.rst = some v → levelAfter .rst v evs ≠ Config.rstActive)
    (absent : Config.hasRst = false → ∀ v, Event.set .rst v ∉ evs) : LinesSound t := by
  refine linesSound_performed sound performed ?_ (fun v before after => absurd after (rst v before)) absent
  rw [cs]
  refine ⟨nofun, ?_⟩
  rintro ⟨p, hp, _⟩
  cases seq.symm.trans hp

/-- Where the sequencer stands says what level CS has, and that RST is inactive but before the recovery. -/
theorem levels_of_linesSound {p : SeqPos} (sound : LinesSound s) (hs : s.seq = .run p) :
    s.cs = !inFrame p.ph ∧ (p.ph ≠ .rRecover → s.rst ≠ some Config.rstActive) := by
  obtain ⟨_, _, _, _, csPhase, rstPhase, _⟩ := sound
  constructor
  · have frame : s.cs = false ↔ inFrame p.ph = true := by
      refine csPhase.trans ⟨?_, fun inside => ⟨p, hs, inside⟩⟩
      rintro ⟨q, hq, inside⟩
      cases hs.symm.trans hq
      exact inside
    revert frame
    cases s.cs <;> cases inFrame p.ph <;> simp
  · intro other active
    obtain ⟨q, hq, recover⟩ := rstPhase active
    cases hs.symm.trans hq
    exact other recover

/-- An idle block has CS at 1 and RST inactive. -/
theorem levels_of_linesSound_idle (sound : LinesSound s) (hs : s.seq = .idle) :
    s.cs = true ∧ s.rst ≠ some Config.rstActive := by
  obtain ⟨_, _, _, _, csPhase, rstPhase, _⟩ := sound
  constructor
  · by_contra low
    obtain ⟨p, hp, _⟩ := csPhase.mp (Bool.eq_false_of_not_eq_true low)
    cases hs.symm.trans hp
  · intro active
    obtain ⟨p, hp, _⟩ := rstPhase active
    cases hs.symm.trans hp

/-- Every arrow of R112 and R116 drives the lines to what its next position asks for. -/
theorem linesSound_microStep (control : ControlSound s) (sound : LinesSound s) (busy : s.busy = true)
    (run : microStep s = .next t) : LinesSound t := by
  obtain ⟨f, k, i, ph, hs, inQueue⟩ := run_of_controlSound control busy
  obtain ⟨cs, inactive⟩ := levels_of_linesSound sound hs
  have line : inPulse ph = true → Config.hasRst = false → ∀ (v : Bool) (evs : List Event), Event.set .rst v ∉ evs :=
    fun pulse noLine => by cases noLine.symm.trans ((control.2 _ hs).2 pulse)
  have quiet (other : ph ≠ .rRecover) (v : Bool) (before : s.rst = some v) : v ≠ Config.rstActive :=
    fun active => inactive other (before.trans (congrArg some active))
  have inactiveLevel : (!Config.rstActive) ≠ Config.rstActive := Bool.not_ne_self _
  cases ph with
  | csAssert =>
    cases (microStep_csAssert hs).symm.trans run
    refine linesSound_run sound (performed_moved [.set .cs false] _ _) rfl ?_ (fun v before after => absurd after (quiet nofun v before)) (by simp)
    split <;> rfl
  | setup =>
    cases (microStep_setup hs (List.getElem?_eq_getElem (inQueue rfl))).symm.trans run
    exact linesSound_run sound (performed_moved [.set .clk false, .set .data _] _ _) rfl cs
      (fun v before after => absurd after (quiet nofun v before)) (by simp)
  | holdLow =>
    cases (microStep_holdLow hs).symm.trans run
    exact linesSound_run sound (performed_moved [.wait .bit] _ _) rfl cs (fun v before after => absurd after (quiet nofun v before)) (by simp)
  | rise =>
    cases (microStep_rise hs).symm.trans run
    exact linesSound_run sound (performed_moved [.set .clk true] _ _) rfl cs (fun v before after => absurd after (quiet nofun v before)) (by simp)
  | holdHigh =>
    cases (microStep_holdHigh hs).symm.trans run
    obtain ⟨_, _, inside, _⟩ := advance_phase (f := f) (i := i) (ph := .holdHigh) (inQueue rfl)
    exact linesSound_run sound (performed_moved [.wait .bit] _ _) rfl (cs.trans (by rw [inside]; rfl))
      (fun v before after => absurd after (quiet nofun v before)) (by simp)
  | csRelease =>
    match hn : s.nextFrame f with
    | none =>
      cases (microStep_csRelease_last hs hn).symm.trans run
      exact linesSound_idle sound (performed_respond [.set .cs true] _) rfl rfl
        (quiet nofun) (by simp)
    | some bs =>
      cases (microStep_csRelease_next hs hn).symm.trans run
      exact linesSound_run sound (performed_moved [.set .cs true] _ _) rfl rfl (fun v before after => absurd after (quiet nofun v before)) (by simp)
  | rCs =>
    cases (microStep_rCs hs).symm.trans run
    exact linesSound_run sound (performed_moved [.set .cs true] _ _) rfl rfl (fun v before after => absurd after (quiet nofun v before)) (by simp)
  | rPre =>
    cases (microStep_rPre hs).symm.trans run
    exact linesSound_run sound (performed_moved [.set .rst _] _ _) rfl cs (fun _ _ a => absurd a inactiveLevel)
      (fun noLine v => line rfl noLine v _)
  | rPulse =>
    cases (microStep_rPulse hs).symm.trans run
    exact linesSound_run sound (performed_moved [.set .rst _, .wait .rst] _ _) rfl cs (fun _ _ _ => rfl)
      (fun noLine v => line rfl noLine v _)
  | rRecover =>
    cases (microStep_rRecover hs).symm.trans run
    exact linesSound_idle sound (performed_respond [.set .rst _, .wait .rst] _) rfl cs (fun _ _ => inactiveLevel)
      (fun noLine v => line rfl noLine v _)

/-! ### The lines after a plan -/

/-- R110, R115: every plan leaves CS at 1. -/
theorem levelAfter_cs_events (p : Plan) : levelAfter .cs true p.events = true := by
  cases p with
  | frames fs =>
    induction fs with
    | nil => rfl
    | cons bs fs ih =>
      rw [Plan.events, List.flatMap_cons, levelAfter_append, levelAfter_sendTrace_cs]
      exact ih
  | pulse | reject | nothing | store => rfl

/-- R110: a frame drives no reset line. -/
theorem set_rst_not_mem_sendTrace (v : Bool) (bs : Bytes) : Event.set .rst v ∉ sendTrace bs := by
  simp [sendTrace, byteTrace, bitCell]

/-- R115: a plan leaves RST inactive. -/
theorem levelAfter_rst_events (p : Plan) {v : Bool} (inactive : v ≠ Config.rstActive) :
    levelAfter .rst v p.events ≠ Config.rstActive := by
  cases p with
  | frames fs =>
    induction fs with
    | nil => exact inactive
    | cons bs fs ih =>
      rw [Plan.events, List.flatMap_cons, levelAfter_append, levelAfter_sendTrace_rst]
      exact ih
  | pulse => exact Bool.not_ne_self _
  | reject | nothing | store => exact inactive

/-- R23, R117: without a reset line no plan drives one. -/
theorem set_rst_not_mem_events (noLine : Config.hasRst = false) {i : Instr} {p : Plan} (plan : PlanCase s i p) (v : Bool) :
    Event.set .rst v ∉ p.events := by
  have frames (fs : List Bytes) : Event.set .rst v ∉ Plan.events (.frames fs) := by
    rw [Plan.events, List.mem_flatMap]
    rintro ⟨bs, _, mem⟩
    exact set_rst_not_mem_sendTrace v bs mem
  cases plan with
  | pulse line => cases noLine.symm.trans line
  | frame | update => exact frames _
  | reject | nothing | attach | set => exact List.not_mem_nil

/-- The lines of a block that stands at `IDLE` stay sound through a plan. -/
theorem linesSound_carryOut (sound : LinesSound s) (idle : s.seq = .idle) {p : Plan}
    (absent : Config.hasRst = false → ∀ v, Event.set .rst v ∉ p.events) : LinesSound (s.carryOut p) := by
  obtain ⟨cs, inactive⟩ := levels_of_linesSound_idle sound idle
  refine linesSound_idle sound (performed_carryOut p) (carryOut_seq _ _) (by rw [cs, levelAfter_cs_events]) (fun v before => ?_) absent
  exact levelAfter_rst_events p fun active => inactive (before.trans (congrArg some active))

/-! ## Contexts and buffers -/

theorem contextsSound_congr (sound : ContextsSound s) (contexts : t.ctxs = s.ctxs) (buffers : t.segbuf = s.segbuf) :
    ContextsSound t := by
  have context := State.context_congr contexts
  have byte := State.memRead_congr buffers
  unfold ContextsSound
  simp only [buffers, context, byte]
  exact sound

/-- R175: an attach leaves a legal binding and a buffer in the format of R83. -/
theorem contextsSound_attach (sound : ContextsSound s) {h : Fin Config.nseg} {d slot : Nat} (digit : d ≤ 16)
    (low : 144 ≤ slot) (high : slot ≤ 159) :
    ContextsSound (s.carryOut
      (.store h (attachWrites slot) (some ⟨true, BitVec.ofNat 5 d, BitVec.ofNat 8 slot⟩))) := by
  obtain ⟨wf, keys, contexts⟩ := sound
  have digitValue : (BitVec.ofNat 5 d).toNat = d := Nat.mod_eq_of_lt (by omega)
  have slotValue : (BitVec.ofNat 8 slot).toNat = slot := Nat.mod_eq_of_lt (by omega)
  have bindings := carryOut_ctxs s (.store h (attachWrites slot) (some ⟨true, BitVec.ofNat 5 d, BitVec.ofNat 8 slot⟩))
  have buffers := carryOut_segbuf s (.store h (attachWrites slot) (some ⟨true, BitVec.ofNat 5 d, BitVec.ofNat 8 slot⟩))
  rw [Plan.contexts] at bindings
  rw [Plan.buffers] at buffers
  have context (h' : Fin Config.nseg) := (State.context_congr bindings h').trans (s.context_bind h h' _)
  have byte (a : BufAddr) := (State.memRead_congr buffers a).trans (s.memRead_attach h slot a)
  refine ⟨by rw [buffers]; exact s.writeBuf_wf h _ wf, by rw [buffers]; exact s.writeBuf_keys h _ keys, fun h' valid => ?_⟩
  simp only [context, byte] at valid ⊢
  by_cases own : h' = h
  · simp only [own, if_true, digitValue, slotValue]
    refine ⟨digit, low, high, rfl, rfl, fun k column => ?_⟩
    rw [if_neg (by omega), if_neg (by omega), BitVec.getLsbD_zero]
  · simp only [own, if_false] at valid ⊢
    exact contexts h' valid

/-- R180, R183: a set leaves the bindings, the header bytes and bit 0 of the column bytes. -/
theorem contextsSound_set (sound : ContextsSound s) {h : Fin Config.nseg} {j v : Nat} (index : j ≤ 34) :
    ContextsSound (s.carryOut (.store h [(segByte j, segUpdateByte (s.memRead ⟨h, segByte j⟩) j v)] none)) := by
  obtain ⟨wf, keys, contexts⟩ := sound
  have bindings := carryOut_ctxs s (.store h [(segByte j, segUpdateByte (s.memRead ⟨h, segByte j⟩) j v)] none)
  have buffers := carryOut_segbuf s (.store h [(segByte j, segUpdateByte (s.memRead ⟨h, segByte j⟩) j v)] none)
  have context := State.context_congr (s := s) bindings
  have byte (a : BufAddr) := (State.memRead_congr (s := s.memWrite _ _) buffers a).trans (s.memRead_memWrite _ a _)
  have column : 2 ≤ (segByte j).val := Nat.le_add_right 2 _
  have header (h' : Fin Config.nseg) (k : Fin Config.bufLen) (hk : k.val < 2) : (⟨h, segByte j⟩ : BufAddr) ≠ ⟨h', k⟩ := by
    rintro ⟨⟩
    omega
  refine ⟨buffers ▸ Memory.wf_write wf, buffers ▸ s.writeBuf_keys h [(segByte j, _)] keys, fun h' valid => ?_⟩
  rw [context] at valid ⊢
  obtain ⟨digit, low, high, opcode, offset, clear⟩ := contexts h' valid
  rw [byte, byte, if_neg (header h' 0 (by decide)), if_neg (header h' 1 (by decide))]
  refine ⟨digit, low, high, opcode, offset, fun k hk => ?_⟩
  rw [byte]
  split
  next here =>
    have notBitZero : 0 ≠ segBit j := by simp only [segBit]; omega
    cases here
    rw [getLsbD_segUpdateByte, if_neg notBitZero]
    exact clear _ hk
  next => exact clear k hk

/-- R32, R33: every plan keeps the contexts sound. -/
theorem contextsSound_carryOut (sound : ContextsSound s) {i : Instr} {p : Plan} (plan : PlanCase s i p) :
    ContextsSound ((s.accept i).carryOut p) := by
  cases plan with
  | attach h digit low high => exact contextsSound_attach (s := s.accept _) sound digit low high
  | set h v index => exact contextsSound_set (s := s.accept _) sound index
  | reject | frame | pulse | nothing | update =>
    exact contextsSound_congr sound (carryOut_ctxs _ _) (carryOut_segbuf _ _)

/-! ## Flags -/

/-- R201: every cause code is one of 1 to 16. -/
theorem errBits_range (code : ErrCode) : (errBits code).toNat ≤ 16 ∧ errBits code ≠ 0#5 := by
  cases code <;> decide

theorem flagsSound_carryOut (sound : FlagsSound s) {u : State} (fault : u.fault = s.fault) (errcode : u.errcode = s.errcode)
    (p : Plan) : FlagsSound (u.carryOut p) := by
  obtain ⟨range, agree, _, _⟩ := sound
  rw [FlagsSound, carryOut_errcode, carryOut_fault, carryOut_resp, carryOut_busy, fault, errcode]
  cases p.response with
  | ok => exact ⟨range, agree, nofun, nofun⟩
  | invalid code =>
    obtain ⟨codeRange, nonzero⟩ := errBits_range code
    refine ⟨codeRange, ⟨fun _ => nonzero, fun _ => rfl⟩, ?_, nofun⟩
    rintro _ ⟨⟩
    rfl

/-- No small step touches the flags, and the last one answers `OK`. -/
theorem flagsSound_microStep (sound : FlagsSound s) (busy : s.busy = true) (run : microStep s = .next t) : FlagsSound t := by
  obtain ⟨range, agree, _, noResponse⟩ := sound
  rcases microStep_frame run with ⟨evs, ⟨q, bs, rfl⟩ | rfl⟩ <;> rw [State.emit_eq]
  · exact ⟨range, agree, fun code resp => (by cases (noResponse busy).symm.trans resp), noResponse⟩
  · exact ⟨range, agree, nofun, nofun⟩

/-! ## The invariant -/

theorem contextsSound_microStep (sound : ContextsSound s) (run : microStep s = .next t) : ContextsSound t := by
  rcases microStep_frame run with ⟨evs, ⟨q, bs, rfl⟩ | rfl⟩ <;> rw [State.emit_eq] <;> exact sound

/-- The invariant through a small step. -/
theorem inv_microStep (inv : Inv s) (busy : s.busy = true) (run : microStep s = .next t) : Inv t := by
  obtain ⟨control, lines, contexts, flags⟩ := inv
  exact ⟨controlSound_microStep control busy run, linesSound_microStep control lines busy run,
    contextsSound_microStep contexts run, flagsSound_microStep flags busy run⟩

/-- An idle block whose control fields agree stands at `IDLE`. -/
theorem seq_of_controlSound (sound : ControlSound s) (idle : s.busy = false) : s.seq = .idle := by
  by_contra running
  cases idle.symm.trans (sound.1.mpr running)

/-- The invariant through a request run whole. -/
theorem inv_carryOut (inv : Inv s) (idle : s.busy = false) (i : Instr) : Inv ((s.accept i).carryOut (planOf i s)) := by
  obtain ⟨control, lines, contexts, flags⟩ := inv
  exact ⟨controlSound_of_idle (carryOut_busy _ _) (carryOut_seq _ _),
    linesSound_carryOut (s := s.accept i) lines (seq_of_controlSound (s := s) control idle)
      fun noLine v => set_rst_not_mem_events noLine (planCase i s) v,
    contextsSound_carryOut contexts (planCase i s), flagsSound_carryOut (u := s.accept i) flags rfl rfl _⟩

/-- The invariant through the exception (R205). -/
theorem inv_raise (inv : Inv s) (idle : s.busy = false) (code : ErrCode) : Inv (s.raise code) := by
  obtain ⟨control, lines, contexts, flags⟩ := inv
  exact ⟨controlSound_of_idle rfl rfl,
    linesSound_carryOut (p := .reject code) lines (seq_of_controlSound control idle) fun _ _ => List.not_mem_nil,
    contexts, flagsSound_carryOut flags rfl rfl (.reject code)⟩

/-- Settles O54: each kind of step keeps each part of the invariant. -/
theorem everyStepKeepsTheInvariant : Obligations.EveryStepKeepsTheInvariant := by
  intro s t inv run
  rcases step_cases run with ⟨busy, small⟩ | ⟨idle, ⟨_, rfl⟩ | ⟨r, rest, _, ⟨i, _, rfl⟩ | ⟨code, _, rfl⟩⟩⟩
  · exact inv_microStep inv busy small
  · exact inv
  · exact inv_carryOut (s := s.take r rest) inv idle i
  · exact inv_raise (s := s.take r rest) inv idle code

/-! ## The wire between requests -/

/-- The observer stands outside a frame and has received only whole bytes (R118). -/
def WellReceived (tr : List Event) : Prop := (receive tr).cs = true ∧ ∀ f ∈ framesOf tr, f ≠ none

theorem wellReceived_append_frames {tr : List Event} (sound : WellReceived tr) (fs : List Bytes) :
    WellReceived (tr ++ fs.flatMap sendTrace) := by
  induction fs generalizing tr with
  | nil => rwa [List.flatMap_nil, List.append_nil]
  | cons bs fs ih =>
    obtain ⟨closed, whole⟩ := sound
    rw [List.flatMap_cons, ← List.append_assoc]
    refine ih ⟨?_, ?_⟩
    · rw [receive_cs, levelAfter_append, levelAfter_sendTrace_cs]
    · rw [framesOf_append_sendTrace closed]
      simpa [or_imp, forall_and] using whole

/-- R115: outside a frame the observer sees nothing of the reset pulse. -/
theorem receive_append_pulse {tr : List Event} (closed : (receive tr).cs = true) (a : Bool) :
    receive (tr ++ pulseTrace a) = receive tr := by
  rw [receive_append]
  simp [pulseTrace, Receiver.see, closed]

theorem wellReceived_append_events {tr : List Event} (sound : WellReceived tr) (p : Plan) :
    WellReceived (tr ++ p.events) := by
  cases p with
  | frames fs => exact wellReceived_append_frames sound fs
  | pulse =>
    rw [WellReceived, framesOf, Plan.events, receive_append_pulse sound.1]
    exact sound
  | reject | nothing | store => rwa [Plan.events, List.append_nil]

theorem wireSound_carryOut {u : State} (sound : WireSound s) (cs : u.cs = s.cs) (trace : u.trace = s.trace) (p : Plan) :
    WireSound (u.carryOut p) := by
  obtain ⟨_, high, received⟩ := sound
  rw [WireSound, carryOut_busy, carryOut_cs, carryOut_trace, cs, trace, high, levelAfter_cs_events]
  exact ⟨rfl, rfl, wellReceived_append_events received p⟩

/-- Settles O57: a step between requests carries out a plan, whose events are whole frames or the reset pulse. -/
theorem everyStepKeepsTheWireSound : Obligations.EveryStepKeepsTheWireSound := by
  intro s t sound run
  rcases step_cases run with ⟨busy, _⟩ | ⟨_, ⟨_, rfl⟩ | ⟨r, rest, _, ⟨i, _, rfl⟩ | ⟨code, _, rfl⟩⟩⟩
  · cases busy.symm.trans sound.1
  · exact sound
  · exact wireSound_carryOut (u := (s.take r rest).accept i) sound rfl rfl _
  · exact wireSound_carryOut (u := s.take r rest) sound rfl rfl (.reject code)

/-! ## Reset -/

theorem reset_context_invalid (h : Fin 16) : (State.reset.context h).valid = false := by
  simp [State.context, State.reset, Context.reset]

/-- Settles O52: the fields of the reset state, and the contexts by `reset_context_invalid`. -/
theorem resetState : Obligations.ResetState :=
  ⟨rfl, rfl, rfl, rfl, rfl, rfl, rfl, rfl, rfl, rfl, reset_context_invalid, rfl⟩

theorem linesSound_reset : LinesSound State.reset := by
  refine ⟨rfl, rfl, rfl, rfl, ⟨nofun, nofun⟩, ?_, fun _ _ => List.not_mem_nil⟩
  have inactive : ∀ line active : Bool, (if line = true then some (!active) else none) ≠ some active := by decide
  exact fun active => absurd active (inactive _ _)

/-- Settles O53: nothing runs, nothing is driven, no context is valid, no flag is set. -/
theorem invariantHoldsAtReset : Obligations.InvariantHoldsAtReset := by
  refine ⟨controlSound_of_idle rfl rfl, linesSound_reset, ⟨rfl, nofun, fun h valid => ?_⟩, ?_⟩
  · cases (reset_context_invalid h).symm.trans valid
  · exact ⟨Nat.zero_le _, ⟨nofun, fun nonzero => absurd rfl nonzero⟩, nofun, nofun⟩

/-- Settles O56: nothing has been driven. -/
theorem wireIsSoundAtReset : Obligations.WireIsSoundAtReset := ⟨rfl, rfl, rfl, nofun⟩

end Sys2Proof.Machine
end
